-- ==== Sys2Proof/Word.lean ====
section
/-! DEFINITION. The words of the block: bytes, bits, line levels, the 16-bit Command Descriptor, times and pins (spec/00_scope.md R9, R10). -/

namespace Sys2Proof

/-- A byte, `0x00`..`0xFF` (R9, R10). -/
abbrev Byte := BitVec 8

/-- A 16-bit Command Descriptor (R9, R70). -/
abbrev Descriptor := BitVec 16

/-- A line level, and every 1-bit value of the block: `false` is 0 and `LOW`, `true` is 1 and `HIGH` (R10). -/
abbrev Level := Bool

/-- `LOW = 0` (R10). -/
abbrev LOW : Level := false

/-- `HIGH = 1` (R10). -/
abbrev HIGH : Level := true

/-- Time in microseconds: an unbounded natural that never wraps (R9, R36, decision D29). -/
abbrev Time := Nat

/-- Which further pins there are beside the first two: the open part of the type `PinId` (R8, decision D15). DESIGN CHOICE,
safe: log 2. -/
opaque Config.isPin : Nat → Bool

/-- The type of `clock_pin` and `data_pin` is the open parameter `PinId` (R8, decision D15). All that the block needs of it is that
two pins can be different (R280): there are two, and any further ones that `Config.isPin` says, which nothing in Lean can
evaluate, so how many there are is open. Pins are compared and never computed with (R21). DESIGN CHOICE, safe: log 2. -/
inductive PinId where
  /-- One pin. -/
  | first
  /-- Another. -/
  | second
  /-- A further pin, if there are any. -/
  | further (n : Nat) (isPin : Config.isPin n = true)
deriving DecidableEq, Repr, Inhabited

/-- The identity of `byte_received_callback` (R21). No rule looks inside it. DESIGN CHOICE, safe: log 2. -/
abbrev CallbackId := Nat

end Sys2Proof
end

