-- ==== Sys2Proof/Syntax.lean ====
section
/-! DEFINITION. The caller's syntax: one constructor of `Instr` per row of spec/opcode_table.json, the request
words at the port `host.op`, and the events of the one interleaving that orders every agent's steps
(spec/10_state.md R20, spec/20_memory.md R63, spec/30_encoding.md R84). -/

namespace Sys2Proof

/-- The two lines of the link (spec/00_scope.md R13). -/
inductive Line where
  /-- The clock line. -/
  | clk
  /-- The data line. -/
  | data
deriving DecidableEq, Repr, Inhabited

/-- The operations of the opcode table, in the table's order (spec/30_encoding.md R80, R81, R85). -/
inductive Instr where
  /-- `SETSCALE11`, descriptor `0x00E6` (R190). -/
  | setscale11
  /-- `SETRATE(r)`, descriptor `0x10F3` (R191). -/
  | setrate (r : Byte)
  /-- `ENABLE`, descriptor `0x00F4` (R192). -/
  | enable
  /-- `DISABLE`, descriptor `0x00F5` (R193). -/
  | disable
  /-- `RESET_BAT`, descriptor `0x02FF` (R194). -/
  | resetBat
  /-- `SETRES(a)`, descriptor `0x10E8` (R195). -/
  | setres (a : Byte)
  /-- `GETINFO`, descriptor `0x03E9` (R196). -/
  | getinfo
  /-- The generic `command(desc, args)`, any descriptor (R165, R81). -/
  | command (desc : Descriptor) (args : List Byte)
  /-- `encoded(b)`, the Synaptics encoded byte transfer (R210). -/
  | encoded (b : Byte)
  /-- `query(c)`, the Synaptics status query (R212). -/
  | query (c : Byte)
  /-- `set_mode(m, r)`, one phase of mode programming (R213). -/
  | setMode (m r : Byte)
  /-- `mode_program`, the mode-programming script (R214). -/
  | modeProgram
  /-- `syn_init`, the Synaptics initialization (R215). -/
  | synInit
deriving DecidableEq, Repr, Inhabited

/-- The words in which an operation stands at `host.op`: a Command Descriptor with the argument bytes that
follow it, or a composite by its name, which has no encoding of its own (R84, R85). -/
inductive OpWords where
  /-- A descriptor word and the argument bytes after it. -/
  | descriptor (desc : Descriptor) (args : List Byte)
  /-- The composite `encoded(b)`. -/
  | encoded (b : Byte)
  /-- The composite `query(c)`. -/
  | query (c : Byte)
  /-- The composite `set_mode(m, r)`. -/
  | setMode (m r : Byte)
  /-- The composite `mode_program`. -/
  | modeProgram
  /-- The composite `syn_init`. -/
  | synInit
deriving DecidableEq, Repr, Inhabited

/-- A link primitive by name; a caller's request for one is refused (R172, R248). -/
inductive LinkPrimitive where
  /-- `drive_low(L)` (R100). -/
  | driveLow (l : Line)
  /-- `release_high(L)` (R101). -/
  | releaseHigh (l : Line)
  /-- `sample(L)` (R102). -/
  | sample (l : Line)
  /-- `set_data(v)` (R104). -/
  | setData (v : Level)
  /-- `wait_clock(t)` (R105). -/
  | waitClock (t : Level)
  /-- `delay(d)` (R107). -/
  | delay (d : Time)
deriving DecidableEq, Repr, Inhabited

/-- What a caller may ask for at `host.op` (R20, R172). -/
inductive Request where
  /-- An operation of the opcode table, in its words. -/
  | op (w : OpWords)
  /-- `begin(clock_pin, data_pin, byte_received_callback)` (R280). -/
  | begin (clockPin dataPin : PinId) (callback : CallbackId)
  /-- A request for `write_byte(b)`, which is not an operation (R172). -/
  | writeByte (b : Byte)
  /-- A request for `read_byte_sync()`, which is not an operation (R172). -/
  | readByteSync
  /-- A request for a link primitive, which is not an operation (R248). -/
  | link (p : LinkPrimitive)
deriving DecidableEq, Repr, Inhabited

/-- One element of the interleaving (R63): which agent of R20 steps next, and with what. -/
inductive Event where
  /-- The device sets whether it pulls its end of a line low (R30). -/
  | device (l : Line) (low : Bool)
  /-- Time advances by `d` µs (R36). -/
  | time (d : Time)
  /-- The transaction engine takes a step (R37). -/
  | engine
  /-- The receive handler takes its step if it is enabled (R121). Should the step deliver a byte, `callback`
  is the operation that the consumer requests from inside the delivery, if any (R131; log 18). -/
  | handler (callback : Option Request)
  /-- The caller makes a request at `host.op`. -/
  | caller (r : Request)
  /-- The Device Status Snapshot is read (R38; log 17). -/
  | readSnapshot
deriving DecidableEq, Repr, Inhabited

end Sys2Proof
end

