-- ==== Sys2Proof/Machine/Operands.lean ====
section
/-! DEFINITION. The operand forms: the fields of a Command Descriptor, the seven listed descriptors, the
acknowledgement byte, the bits of a byte in wire order and the Synaptics 2-bit slices
(spec/30_encoding.md sections 1, 3, 4 and spec/20_memory.md section 2). -/

namespace Sys2Proof.Machine

/-- `n_send = zext_4(desc[15:12])` (R71). -/
def sendCount (desc : Descriptor) : Nat := (desc.extractLsb' 12 4).toNat

/-- `n_recv = zext_4(desc[11:8])` (R71). -/
def recvCount (desc : Descriptor) : Nat := (desc.extractLsb' 8 4).toNat

/-- `op = desc[7:0]` (R71). -/
def opcodeByte (desc : Descriptor) : Byte := desc.extractLsb' 0 8

/-- `SETSCALE11` (R80). -/
def descSetscale11 : Descriptor := 0x00E6#16
/-- `SETRATE` (R80). -/
def descSetrate : Descriptor := 0x10F3#16
/-- `ENABLE` (R80). -/
def descEnable : Descriptor := 0x00F4#16
/-- `DISABLE` (R80). -/
def descDisable : Descriptor := 0x00F5#16
/-- `RESET_BAT` (R80). -/
def descResetBat : Descriptor := 0x02FF#16
/-- `SETRES` (R80). -/
def descSetres : Descriptor := 0x10E8#16
/-- `GETINFO` (R80). -/
def descGetinfo : Descriptor := 0x03E9#16

/-- The seven descriptors that the block knows (R80). -/
def listedDescriptors : List Descriptor :=
  [descSetscale11, descSetrate, descEnable, descDisable, descResetBat, descSetres, descGetinfo]

/-- The acknowledgement byte `ACK = 0xFA` (R7, R156). -/
def ackByte : Byte := 0xFA#8

/-- Payload bit `k` of a byte, `b[k]`, which travels `k`-th (R52). -/
def bitOf (b : Byte) (k : Nat) : Level := b.getLsbD k

/-- `b | (d << k)`: a received bit put at bit position `k` (R125, R159). -/
def putBit (b : Byte) (k : Nat) (d : Level) : Byte := b ||| ((BitVec.ofBool d).setWidth 8 <<< k)

/-- `(b >> (6 - 2*k)) & 3`, sent as a full byte: the `k`-th `SETRES` argument of an encoded byte, most significant
pair first (R78, R55). -/
def slice (b : Byte) (k : Nat) : Byte := (b >>> (6 - 2 * k)) &&& 3#8

/-- `(a0 << 6) | (a1 << 4) | (a2 << 2) | a3` (R79). -/
def unslice (a0 a1 a2 a3 : Byte) : Byte := (a0 <<< 6) ||| (a1 <<< 4) ||| (a2 <<< 2) ||| a3

end Sys2Proof.Machine
end

