-- ==== Sys2Proof/WellFormed.lean ====
section
/-! DEFINITION. Which operations are well formed: the one check that the spec puts on an operation's words is the
argument count of the generic command (spec/42_transmit.md R171, decision D11). -/

namespace Sys2Proof

/-- `len(args) = desc[15:12]` for the generic command (R171); every other form carries its operands in its type. The
opcode is not checked against its counts (R72), and no descriptor is illegal (R81). -/
def Instr.wellFormed : Instr → Bool
  | .command desc args => args.length == Machine.sendCount desc
  | .setscale11 | .setrate _ | .enable | .disable | .resetBat | .setres _ | .getinfo => true
  | .encoded _ | .query _ | .setMode _ _ | .modeProgram | .synInit => true

/-- The proposition that an operation is well formed. -/
abbrev Instr.WellFormed (i : Instr) : Prop := i.wellFormed = true

end Sys2Proof
end

