-- ==== Sys2Proof/Decode.lean ====
section
/-! DEFINITION. The decoder of a request's words, total and rejecting by name, and the encoder after it, both from
the descriptors of spec/30_encoding.md R80 and the forms of R84 and R85. -/

namespace Sys2Proof

open Machine

/-- Why a request's words name no operation. -/
inductive DecodeError where
  /-- The number of argument bytes is not `desc[15:12]` (R171). -/
  | argCountMismatch
deriving DecidableEq, Repr

/-- The operation that a descriptor and as many arguments as it announces stand for: the seven exact rows first, then the
generic command (R80, R81, and the note of the table's `command` row). -/
def recognise (desc : Descriptor) (args : List Byte) : Instr :=
  if desc = descSetscale11 then .setscale11
  else if desc = descEnable then .enable
  else if desc = descDisable then .disable
  else if desc = descResetBat then .resetBat
  else if desc = descGetinfo then .getinfo
  else match args with
    | [x] =>
      if desc = descSetrate then .setrate x
      else if desc = descSetres then .setres x
      else .command desc args
    | _ => .command desc args

/-- The decoder. The only rejection is a wrong argument count (R171); no descriptor is illegal (R81), and a composite
stands for itself (R85). -/
def decode : OpWords → Except DecodeError Instr
  | .descriptor desc args =>
    if args.length = sendCount desc then .ok (recognise desc args) else .error .argCountMismatch
  | .encoded b => .ok (.encoded b)
  | .query c => .ok (.query c)
  | .setMode m r => .ok (.setMode m r)
  | .modeProgram => .ok .modeProgram
  | .synInit => .ok .synInit

/-- The encoder: the descriptor of R80 followed by the argument bytes, or the composite's name (R84, R85). -/
def encode : Instr → OpWords
  | .setscale11 => .descriptor descSetscale11 []
  | .setrate r => .descriptor descSetrate [r]
  | .enable => .descriptor descEnable []
  | .disable => .descriptor descDisable []
  | .resetBat => .descriptor descResetBat []
  | .setres a => .descriptor descSetres [a]
  | .getinfo => .descriptor descGetinfo []
  | .command desc args => .descriptor desc args
  | .encoded b => .encoded b
  | .query c => .query c
  | .setMode m r => .setMode m r
  | .modeProgram => .modeProgram
  | .synInit => .synInit

/-- The one spelling of an operation: a generic command with a listed descriptor is the mnemonic's operation, every other
operation is itself (R81: the generic form serializes the seven rows too). -/
def Instr.canonical : Instr → Instr
  | .command desc args => recognise desc args
  | i => i

/-- The argument byte at index `i` of an operation laid out as one number: bits 15:0 the descriptor, then the argument
bytes in order (R54; the layout after the descriptor is a DESIGN CHOICE, safe: log 19). -/
def tableArg (w i : Nat) : Byte := BitVec.ofNat 8 (w >>> (16 + 8 * i))

/-- The words of an operation whose bits are `w`, numbered as the opcode table numbers them, of which `nbits` are
given and every later bit is 0 (log 19). -/
def tableWords (nbits w : Nat) : OpWords :=
  let v := w % 2 ^ nbits
  let desc : Descriptor := BitVec.ofNat 16 v
  .descriptor desc ((List.range (sendCount desc)).map (tableArg v))

/-- What the decoder reads from those words. -/
def decodeTableWord (nbits w : Nat) : Option Instr :=
  match decode (tableWords nbits w) with
  | .ok i => some i
  | .error _ => none

end Sys2Proof
end

