-- ==== Sys2Proof/Machine/Flags.lean ====
section
/-! DEFINITION. The flag computations: the parity of a byte, the transmitted parity bit, the 11 bits of a frame and
the three checks of a received frame (spec/30_encoding.md section 2, spec/60_exceptions.md R240). -/

namespace Sys2Proof.Machine

/-- The XOR of the first `n` payload bits `b[0]..b[n-1]` (R25, R34). -/
def prefixParity (b : Byte) : Nat → Bool
  | 0 => false
  | n + 1 => prefixParity b n ^^ bitOf b n

/-- `b[0] ^ ... ^ b[7]`. -/
def byteParity (b : Byte) : Bool := prefixParity b 8

/-- `tx_parity(b) = 1 ^ b[0] ^ ... ^ b[7]` (R75). -/
def txParity (b : Byte) : Bool := true ^^ byteParity b

/-- The bit of byte `b`'s frame at position `p`: 0 the start bit 0, 1..8 the payload LSB first, 9 the odd parity bit,
10 the stop bit 1 (R53, R73, R74). -/
def frameBit (b : Byte) (p : Nat) : Level :=
  if p = 0 then false
  else if p ≤ 8 then bitOf b (p - 1)
  else if p = 9 then txParity b
  else true

/-- The start check passes when the sample is 0 (R240 code 1). -/
def startOk (d : Level) : Bool := d == false

/-- The parity check passes when the cumulative XOR over the 8 data bits and the parity bit is 1 (R76, R240 code 2). -/
def parityOk (cumulative : Bool) : Bool := cumulative == true

/-- The stop check passes when the sample is 1 (R240 code 3). -/
def stopOk (d : Level) : Bool := d == true

/-- The line-control check passes when the sample is 0 (R155, R240 code 5). -/
def lineControlOk (d : Level) : Bool := d == false

/-- The acknowledgement check passes when the byte read back is `0xFA` (R156, R240 code 6). -/
def ackOk (b : Byte) : Bool := b == ackByte

end Sys2Proof.Machine
end

