-- ==== Sys2Proof/Config.lean ====
section
/-! DEFINITION. What an implementation fixes: the literals of spec/00_scope.md R7 with their defaults, the open
parameters of R8 as constants without a body, and the free values (draws of an undriven line, the choices of the
interleaving). Nothing in Lean can evaluate a constant declared `opaque` here. -/

namespace Sys2Proof

/-- The three response bytes of one Synaptics query, in arrival order (R38, R212). -/
structure Response where
  /-- `r0`, the first byte read. -/
  r0 : Byte
  /-- `r1`, the second. -/
  r1 : Byte
  /-- `r2`, the third. -/
  r2 : Byte
deriving DecidableEq, Repr, Inhabited

/-- The parameters of the block, fixed for the machine (R7, R8). State carries one such record, which no step
changes, so that a statement about every state is a statement about every value of the open ones (log 5). -/
structure Config.Params where
  /-- `T_RTS` = 100 µs: the request-to-send hold (R7, R255). -/
  tRts : Time := 100
  /-- `T_TIMEOUT` = 25 ms: the budget of one clock wait (R7, R255). -/
  tTimeout : Time := 25000
  /-- `T_READY_PULSE`, open, > 0 (R8, decision D7). -/
  tReadyPulse : Time
  /-- `EXT_PULLUP`, open (R8, decision D2). -/
  extPullup : Bool
  /-- `EDGE_LATCH_WHILE_MASKED`, open (R8, decision D14). -/
  edgeLatchWhileMasked : Bool
  /-- `Q_VERSION`, open (R8, decision D19). -/
  qVersion : Byte
  /-- `Q_EXTCAPS`, open. -/
  qExtCaps : Byte
  /-- `Q_RESOLUTION`, open. -/
  qResolution : Byte
  /-- `Q_CLICKPAD`, open. -/
  qClickpad : Byte
deriving DecidableEq, Repr, Inhabited

/-- `T_READY_PULSE` less one: the source says "briefly" and the spec keeps only `> 0` (R8, D7). DESIGN CHOICE, safe: log 5. -/
opaque Config.tReadyPulseLessOne : Nat
/-- `EXT_PULLUP` (R8, D2). DESIGN CHOICE, safe: log 5. -/
opaque Config.extPullup : Bool
/-- `EDGE_LATCH_WHILE_MASKED` (R8, D14). DESIGN CHOICE, safe: log 5. -/
opaque Config.edgeLatchWhileMasked : Bool
/-- `Q_VERSION` (R8, D19). DESIGN CHOICE, safe: log 5. -/
opaque Config.qVersion : Byte
/-- `Q_EXTCAPS` (R8, D19). DESIGN CHOICE, safe: log 5. -/
opaque Config.qExtCaps : Byte
/-- `Q_RESOLUTION` (R8, D19). DESIGN CHOICE, safe: log 5. -/
opaque Config.qResolution : Byte
/-- `Q_CLICKPAD` (R8, D19). DESIGN CHOICE, safe: log 5. -/
opaque Config.qClickpad : Byte

/-- This machine's parameters: the literals at their defaults, the open ones free. -/
def Config.params : Config.Params where
  tReadyPulse := Config.tReadyPulseLessOne + 1
  extPullup := Config.extPullup
  edgeLatchWhileMasked := Config.edgeLatchWhileMasked
  qVersion := Config.qVersion
  qExtCaps := Config.qExtCaps
  qResolution := Config.qResolution
  qClickpad := Config.qClickpad

/-- `PARSE_x_units_per_mm` of the four responses (R216, D19). The field's width is open too, so it is a natural number.
DESIGN CHOICE, safe: log 6. -/
opaque Config.parseXUnitsPerMm : Response → Response → Response → Response → Nat
/-- `PARSE_y_units_per_mm` (R216, D19). DESIGN CHOICE, safe: log 6. -/
opaque Config.parseYUnitsPerMm : Response → Response → Response → Response → Nat
/-- `PARSE_clickpad_type` (R216, D19). DESIGN CHOICE, safe: log 6. -/
opaque Config.parseClickpadType : Response → Response → Response → Response → Nat
/-- `PARSE_capability_flags` (R216, D19). DESIGN CHOICE, safe: log 6. -/
opaque Config.parseCapabilityFlags : Response → Response → Response → Response → Nat

/-- The free level of a floating line that nobody drives, fresh at every read: the `n`-th draw (R108, D2).
DESIGN CHOICE, safe: log 8. -/
opaque Config.lineDraw : Line → Nat → Level

/-- The free choice of the environment's next step once no more are listed: the `n`-th (R63, R64, R106).
DESIGN CHOICE, safe: log 7. -/
opaque Config.freeEvent : Nat → Event

end Sys2Proof
end

