-- ==== Sys2Proof/Machine/State.lean ====
section
/-! DEFINITION. The state of the block as plain data, its faults and refusals, and the state after reset
(spec/10_state.md R20-R42, spec/42_transmit.md R173, spec/60_exceptions.md R240, R248). -/

namespace Sys2Proof.Machine

/-- The pad mode of the block's end of a line (R29). -/
inductive Pad where
  /-- `DRIVE_LOW`: output, logic low. -/
  | driveLow
  /-- `IN_PULLUP`: input with pull-up. -/
  | inPullup
  /-- `IN_FLOAT`: input, no pull. -/
  | inFloat
deriving DecidableEq, Repr, Inhabited

/-- The six reported errors (R240). -/
inductive ErrorName where
  | startBitError
  | parityError
  | stopBitError
  | clockTimeout
  | lineControlError
  | nackError
deriving DecidableEq, Repr, Inhabited

/-- The error codes (R240, decision D8). -/
def ErrorName.code : ErrorName → Nat
  | .startBitError => 1
  | .parityError => 2
  | .stopBitError => 3
  | .clockTimeout => 4
  | .lineControlError => 5
  | .nackError => 6

/-- The context of a report (R247). -/
inductive DiagContext where
  /-- `ASYNC`: from the receive handler. -/
  | async
  /-- `SYNC`: from the transaction engine. -/
  | sync
deriving DecidableEq, Repr, Inhabited

/-- The info of a report (R240). -/
inductive DiagInfo where
  /-- The sampled bit. -/
  | bit (d : Level)
  /-- The assembled byte, or the byte read. -/
  | byte (b : Byte)
  /-- The awaited level. -/
  | level (t : Level)
deriving DecidableEq, Repr, Inhabited

/-- One event of `diag_log` (R40, R247). -/
structure DiagEvent where
  error : ErrorName
  context : DiagContext
  info : DiagInfo
deriving DecidableEq, Repr, Inhabited

/-- The two sub-positions of a wait or a delay (R105, R107, R173). -/
inductive WaitPos where
  /-- `W_ENTER` or `D_ENTER`. -/
  | enter
  /-- `W_POLL` or `D_POLL`. -/
  | poll
deriving DecidableEq, Repr, Inhabited

/-- The positions `RP` of `read_byte_sync` (R173); `k` is the frame position 0..10. -/
inductive ReadPos where
  /-- `RB_BIT(k, WAIT_LOW)`. -/
  | waitLow (k : Fin 11) (w : WaitPos)
  /-- `RB_BIT(k, SAMPLE)`. -/
  | sample (k : Fin 11)
  /-- `RB_BIT(k, WAIT_HIGH)`. -/
  | waitHigh (k : Fin 11) (w : WaitPos)
  /-- `RB_PULSE_LOW`. -/
  | pulseLow
  /-- `RB_PULSE_HOLD`. -/
  | pulseHold (w : WaitPos)
  /-- `RB_PULSE_REL`. -/
  | pulseRel
deriving DecidableEq, Repr, Inhabited

/-- The positions `WP` of `write_byte` (R173); `i` is 0..7 for the data bits, 8 for parity, 9 for stop. -/
inductive WritePos where
  /-- `WB_RTS_CLK`. -/
  | rtsClk
  /-- `WB_RTS_HOLD`. -/
  | rtsHold (w : WaitPos)
  /-- `WB_RTS_DATA`. -/
  | rtsData
  /-- `WB_RTS_REL`. -/
  | rtsRel
  /-- `WB_BIT(i, WAIT_LOW)`. -/
  | bitWaitLow (i : Fin 10) (w : WaitPos)
  /-- `WB_BIT(i, DRIVE)`. -/
  | bitDrive (i : Fin 10)
  /-- `WB_BIT(i, WAIT_HIGH)`. -/
  | bitWaitHigh (i : Fin 10) (w : WaitPos)
  /-- `WB_LC(WAIT_LOW)`. -/
  | lcWaitLow (w : WaitPos)
  /-- `WB_LC(SAMPLE)`. -/
  | lcSample
  /-- `WB_LC(WAIT_HIGH)`. -/
  | lcWaitHigh (w : WaitPos)
  /-- `WB_ACK / RP`. -/
  | ack (p : ReadPos)
  /-- `WB_CHECK`. -/
  | check
deriving DecidableEq, Repr, Inhabited

/-- The sequencer position `seq` (R37, R173). -/
inductive Seq where
  /-- `IDLE`. -/
  | idle
  /-- `CT_BEGIN`. -/
  | ctBegin
  /-- `CT_OPCODE / WP`. -/
  | ctOpcode (p : WritePos)
  /-- `CT_ARG(i) / WP`. -/
  | ctArg (i : Nat) (p : WritePos)
  /-- `CT_RESP(j) / RP`. -/
  | ctResp (j : Nat) (p : ReadPos)
  /-- `CT_END`. -/
  | ctEnd
deriving DecidableEq, Repr, Inhabited

/-- The Link Configuration (R21). -/
structure LinkConfig where
  /-- `clock_pin`. -/
  clockPin : PinId
  /-- `data_pin`. -/
  dataPin : PinId
  /-- `byte_received_callback`. -/
  callback : CallbackId
deriving DecidableEq, Repr, Inhabited

/-- The Receive Frame State (R23-R25). -/
structure Frame where
  /-- `bit_index`, 4 bits, legal values 0..10 (R23). -/
  bitIndex : BitVec 4
  /-- `accumulated_byte` (R24). -/
  accumulatedByte : Byte
  /-- `running_parity` (R25). -/
  runningParity : Bool
deriving DecidableEq, Repr, Inhabited

/-- The frame state's zero/idle values (R26). -/
def Frame.idle : Frame := { bitIndex := 0#4, accumulatedByte := 0x00#8, runningParity := false }

/-- The transaction registers (R33); `n_send`, `n_recv` and `op` are views of `desc`
(`sendCount`, `recvCount`, `opcodeByte`). -/
structure Txn where
  /-- `desc`. -/
  desc : Descriptor
  /-- `args[0..n_send-1]`. -/
  args : List Byte
  /-- `results[0..n_recv-1]`, those read so far. -/
  results : List Byte
  /-- `ok`, the AND of the write results so far. -/
  ok : Bool
deriving DecidableEq, Repr, Inhabited

/-- The write-byte registers (R34). -/
structure WriteRegs where
  /-- `wb_byte`. -/
  byte : Byte
  /-- `wb_parity`. -/
  parity : Bool
  /-- `wb_lc`. -/
  lc : Level
  /-- `wb_ack`. -/
  ack : Byte
deriving DecidableEq, Repr, Inhabited

/-- The synchronous read-byte registers (R35). -/
structure ReadRegs where
  /-- `rb_byte`. -/
  byte : Byte
  /-- `rb_parity`. -/
  parity : Bool
  /-- `rb_bit`. -/
  bit : Level
deriving DecidableEq, Repr, Inhabited

/-- The four queries of the Synaptics initialization (R215). -/
inductive QueryName where
  | version
  | extCaps
  | resolution
  | clickpad
deriving DecidableEq, Repr, Inhabited

/-- What a composite keeps when one of its transactions ends (R215). -/
inductive Post where
  /-- Nothing is kept but `ok`. -/
  | nothing
  /-- `resp_q <- ` the three response bytes. -/
  | keep (q : QueryName)
  /-- `resp_q <- ` the three response bytes, then `snapshot <- PARSE(...)`. -/
  | keepAndParse (q : QueryName)
  /-- The Synaptics initialization has completed (R38). -/
  | initDone
deriving DecidableEq, Repr, Inhabited

/-- One transaction of an operation's expansion (R85): its descriptor, its arguments and what is kept at its end. -/
structure Item where
  desc : Descriptor
  args : List Byte
  post : Post
deriving DecidableEq, Repr, Inhabited

/-- A caller operation on its way (R210-R217): the transactions still to begin, the AND of the ended ones' `ok`, and
what is kept when the one in progress ends. -/
structure Operation where
  todo : List Item
  ok : Bool
  post : Post
deriving DecidableEq, Repr, Inhabited

/-- The Device Status Snapshot's fields (R38, R216). -/
structure Snapshot where
  xUnitsPerMm : Nat
  yUnitsPerMm : Nat
  clickpadType : Nat
  capabilityFlags : Nat
deriving DecidableEq, Repr, Inhabited

/-- The Synaptics layer's store (R38). `none` is the spec's own "unwritten". -/
structure SynState where
  /-- `resp_VERSION`. -/
  version : Option Response
  /-- `resp_EXTCAPS`. -/
  extCaps : Option Response
  /-- `resp_RESOLUTION`. -/
  resolution : Option Response
  /-- `resp_CLICKPAD`. -/
  clickpad : Option Response
  /-- The Device Status Snapshot. -/
  snapshot : Option Snapshot
  /-- The Synaptics initialization has completed once (DEDUCED from R38; log 17). -/
  initDone : Bool
deriving DecidableEq, Repr, Inhabited

/-- What `host.result` carries: `ok` and up to 15 bytes (R20). -/
structure HostResult where
  ok : Bool
  bytes : List Byte
deriving DecidableEq, Repr, Inhabited

/-- The state of the block and of the environment it is observed in (R20-R40). -/
structure State where
  /-- The parameters, fixed for the machine (R7, R8). -/
  cfg : Config.Params
  /-- The Link Configuration (R21). -/
  link : LinkConfig
  /-- `configured` (R22). -/
  configured : Bool
  /-- The Receive Frame State (R23-R25). -/
  frame : Frame
  /-- `gate`, the receive-interrupt enable (R27). -/
  gate : Bool
  /-- `edge_pending` (R28). -/
  edgePending : Bool
  /-- `CLK.pad` (R29). -/
  clkPad : Pad
  /-- `DATA.pad` (R29). -/
  dataPad : Pad
  /-- `dev_low(CLK)` (R30). -/
  clkDevLow : Bool
  /-- `dev_low(DATA)` (R30). -/
  dataDevLow : Bool
  /-- `in_txn` (R31). -/
  inTxn : Bool
  /-- `in_handler` (R32). -/
  inHandler : Bool
  /-- The transaction registers (R33). -/
  txn : Txn
  /-- The write-byte registers (R34). -/
  wb : WriteRegs
  /-- The read-byte registers (R35). -/
  rb : ReadRegs
  /-- `wait_t0` (R36). -/
  waitT0 : Time
  /-- `now` (R36). -/
  now : Time
  /-- `seq` (R37). -/
  seq : Seq
  /-- The running operation (R173, R210-R217). -/
  op : Operation
  /-- The composites in whose gaps other operations were admitted, the last one first: they go on when those have ended
  (R171, R64; log 13). -/
  suspended : List Operation
  /-- The Synaptics layer's store (R38). -/
  syn : SynState
  /-- `rx_stream` (R39). -/
  rxStream : List Byte
  /-- `diag_log` (R40). -/
  diagLog : List DiagEvent
  /-- The results returned at `host.result`, in order (R20). -/
  resultStream : List HostResult
  /-- The model's own: the environment's next steps, first to come first (log 7). -/
  inputs : List Event
  /-- The model's own: how many line draws have been used (log 8). -/
  draws : Nat
  /-- The model's own: how many free scheduler choices have been used (log 7). -/
  choices : Nat
deriving DecidableEq, Repr, Inhabited

/-- The faults of R248: the run stops, and no claim about a next state can be proved from it. -/
inductive Fault where
  /-- An operation requested while `in_handler = 1`, "undefined" in the source (R131). Raised by the admission of every
  operation, by `begin` and by a delivery whose consumer requests one. Safe. -/
  | reentrantTransaction
  /-- `bit_index` in 11..15, unreachable (R134). Raised by the receive handler's step. Safe. -/
  | bitIndexOutOfRange
  /-- A read of an unwritten element (R42). Raised by `readElement` alone: by a read of the snapshot before the Synaptics
  initialization has completed (R38, U12); and by the engine, in states that no run reaches, for an argument or a response that is
  not there or a raw response that `PARSE` finds unwritten (R33, R38, U12). Safe. -/
  | noValue
deriving DecidableEq, Repr

/-- The refusals of R248, and the interface's `notModelled`. The request is rejected, and there is no next state. -/
inductive Refusal where
  /-- An instruction that has no meaning yet. Raised by no arm of `exec`. Safe. -/
  | notModelled (mnemonic : String)
  /-- Any operation but `begin` with `configured = 0`. Raised by the admission of every operation. Safe. -/
  | notConfigured
  /-- An operation requested while `in_txn = 1`. Raised by the admission of every operation. Safe. -/
  | transactionBusy
  /-- `len(args) != desc[15:12]`. Raised by the generic command and by the rejection of a request's words. Safe. -/
  | argCountMismatch
  /-- A caller request for `write_byte`, `read_byte_sync` or a link primitive (R172). Raised by such a request. Safe. -/
  | notAnOperation
  /-- `begin` requested while `in_txn = 1`. Raised by `begin`. Safe. -/
  | beginDuringTransaction
  /-- `begin` with `clock_pin = data_pin`. Raised by `begin`. Safe. -/
  | samePin
deriving DecidableEq, Repr

/-- What a meaning or an event answers. -/
abbrev Result := Host.Outcome State Fault Refusal

/-- The transaction registers while no transaction holds them: "no value" in the spec, and nothing reads them there (R33).
DESIGN CHOICE, unsafe: log 3. -/
def Txn.none : Txn := { desc := 0#16, args := [], results := [], ok := true }

/-- No operation runs. -/
def Operation.none : Operation := { todo := [], ok := true, post := .nothing }

/-- Nothing written yet (R38). -/
def SynState.unwritten : SynState :=
  { version := .none, extCaps := .none, resolution := .none, clickpad := .none, snapshot := .none, initDone := false }

/-- The machine right after reset. The block's "only reset and setup entry" is `begin` (R280, R281), so this is
the column "after `begin`" of R42 (log 1). The pins and the callback are `begin`'s arguments (log 2), the transient
registers have no value (log 3), the environment's values are chosen (log 4), the open parameters are free (log 5). -/
def State.reset : State where
  cfg := Config.params
  link := { clockPin := .first, dataPin := .second, callback := 0 }
  configured := true
  frame := Frame.idle
  gate := true
  edgePending := false
  clkPad := .inPullup
  dataPad := .inPullup
  clkDevLow := false
  dataDevLow := false
  inTxn := false
  inHandler := false
  txn := Txn.none
  wb := { byte := 0x00#8, parity := true, lc := false, ack := 0x00#8 }
  rb := { byte := 0x00#8, parity := false, bit := false }
  waitT0 := 0
  now := 0
  seq := .idle
  op := Operation.none
  suspended := []
  syn := SynState.unwritten
  rxStream := []
  diagLog := []
  resultStream := []
  inputs := []
  draws := 0
  choices := 0

end Sys2Proof.Machine
end

