-- ==== Sys2Proof/Machine/Ops.lean ====
section
/-! DEFINITION. The named operations over the lines and the registers: pads and levels, the link primitives, the
report, the delivery, waits and delays, the edge detector, taking the edge interrupt and returning from it, and the two
gate changes of a transaction (spec/40_link.md, spec/41_receive.md R120-R121, R130, spec/42_transmit.md R165-R169,
spec/60_exceptions.md R247-R253). -/

namespace Sys2Proof.Machine

/-! ## Lines -/

/-- `L.pad` (R29). -/
def State.pad (s : State) : Line → Pad
  | .clk => s.clkPad
  | .data => s.dataPad

/-- `L.pad <- m` (R29, R103). -/
def State.setPad (s : State) (l : Line) (m : Pad) : State :=
  match l with
  | .clk => { s with clkPad := m }
  | .data => { s with dataPad := m }

/-- `dev_low(L)` (R30). -/
def State.devLow (s : State) : Line → Bool
  | .clk => s.clkDevLow
  | .data => s.dataDevLow

/-- A device step: `dev_low(L) <- low` (R30). -/
def State.setDevLow (s : State) (l : Line) (low : Bool) : State :=
  match l with
  | .clk => { s with clkDevLow := low }
  | .data => { s with dataDevLow := low }

/-- `level(L)`, the wired-AND of the two ends (R108). `draw` is the level of a floating line that nobody drives. -/
def levelWith (draw : Level) (l : Line) (s : State) : Level :=
  if s.pad l == .driveLow || s.devLow l then LOW
  else if s.pad l == .inPullup || s.cfg.extPullup then HIGH
  else draw

/-- `level(L)` with the `n`-th draw. -/
def levelAt (n : Nat) (l : Line) (s : State) : Level := levelWith (Config.lineDraw l n) l s

/-- Use up one draw: the next read of a floating, undriven line is a fresh one (R108). -/
def State.nextDraw (s : State) : State := { s with draws := s.draws + 1 }

/-- `drive_low(L)` (R100). -/
def driveLow (l : Line) (s : State) : State := s.setPad l .driveLow

/-- `release_high(L)` (R101). -/
def releaseHigh (l : Line) (s : State) : State := s.setPad l .inPullup

/-- The state after `sample(L)`: the pad floats (R102). -/
def sampled (l : Line) (s : State) : State := (s.setPad l .inFloat).nextDraw

/-- The level that `sample(L)` returns: the one after the pad change, in the same step (R102). -/
def sampleLevel (l : Line) (s : State) : Level := levelAt s.draws l (s.setPad l .inFloat)

/-- The pad mode that puts a bit on a line: 0 drives it low, 1 releases it (R104). -/
def padOfBit (v : Level) : Pad := if v then .inPullup else .driveLow

/-- `set_data(v)` (R104). -/
def setData (v : Level) (s : State) : State := if v then releaseHigh .data s else driveLow .data s

/-! ## Reports and deliveries -/

/-- `raise E(info)`: append the event to the log and go on (R247). -/
def report (e : ErrorName) (c : DiagContext) (i : DiagInfo) (s : State) : State :=
  { s with diagLog := s.diagLog ++ [{ error := e, context := c, info := i }] }

/-- A check that reports when it fails and always goes on (R247, R259). -/
def check (passes : Bool) (e : ErrorName) (c : DiagContext) (i : DiagInfo) (s : State) : State :=
  if passes then s else report e c i s

/-- `deliver(b)`: append the byte to the stream, which is the call of the callback (R130). An operation that the
consumer requests from inside it is the fault `ReentrantTransaction` (R131). -/
def deliver (callback : Option Request) (b : Byte) (s : State) : Result :=
  match callback with
  | none => .next { s with rxStream := s.rxStream ++ [b] }
  | some _ => .fault .reentrantTransaction

/-! ## Waits and delays -/

/-- The pad mode in which `wait_clock(t)` polls: pulled up for `LOW`, floating for `HIGH` (R105). -/
def waitPad (t : Level) : Pad := if t then .inFloat else .inPullup

/-- `W_ENTER` of `wait_clock(t)` (R105). -/
def waitEnter (t : Level) (s : State) : State := { s.setPad .clk (waitPad t) with waitT0 := s.now }

/-- What one poll says. -/
inductive Poll where
  /-- The wait returned `OK`, or the delay is over. -/
  | ok
  /-- The wait returned `TIMEOUT`. -/
  | timeout
  /-- Stay at the poll. -/
  | stay
deriving DecidableEq, Repr

/-- Whether the position is left: every caller ignores the difference between `OK` and `TIMEOUT` (R106, R259). -/
def Poll.done : Poll → Bool
  | .ok | .timeout => true
  | .stay => false

/-- What `W_POLL` of `wait_clock(t)` says: the level first, without touching the pad, then the deadline (R105). -/
def pollClock (t : Level) (s : State) : Poll :=
  if levelAt s.draws .clk s = t then .ok
  else if s.cfg.tTimeout ≤ s.now - s.waitT0 then .timeout
  else .stay

/-- `W_POLL` of `wait_clock(t)`: a timeout is reported (R105, R244). -/
def waitPoll (t : Level) (s : State) : State :=
  match pollClock t s with
  | .timeout => report .clockTimeout .sync (.level t) s.nextDraw
  | .ok | .stay => s.nextDraw

/-- `D_ENTER` of `delay` (R107). -/
def delayEnter (s : State) : State := { s with waitT0 := s.now }

/-- What `D_POLL` of `delay(d)` says; the poll changes nothing (R107). -/
def pollDelay (d : Time) (s : State) : Poll := if d ≤ s.now - s.waitT0 then .ok else .stay

/-! ## The edge detector and the edge interrupt -/

/-- Whether a latched edge may be recorded: `configured = 1` and the gate is open, or edges are latched while it is
closed (R120). -/
def State.latches (s : State) : Bool := s.configured && (s.gate || s.cfg.edgeLatchWhileMasked)

/-- Whether `CLK` fell over a step: `HIGH` before it and `LOW` after it, on the resolved level, each read with a draw of its
own (R109; log 10). -/
def clkFell (before after : State) : Bool :=
  levelAt after.draws .clk before && !levelAt (after.draws + 1) .clk after

/-- The edge latch over one step of any agent (R120). -/
def latchEdge (before after : State) : State :=
  { after with edgePending := after.edgePending || (clkFell before after && after.latches), draws := after.draws + 2 }

/-- Whether the handler step is enabled (R121). -/
def State.handlerEnabled (s : State) : Bool := s.edgePending && s.gate && !s.inHandler

/-- Taking the edge interrupt: the pending edge is consumed, and nothing is saved (R121, R252). -/
def enterHandler (s : State) : State := { s with edgePending := false, inHandler := true }

/-- The return from the handler (R121, R253). -/
def leaveHandler (s : State) : State := { s with inHandler := false }

/-! ## Admission of an operation, and the two ends of a transaction -/

/-- The checks that every operation but `begin` passes before it starts, in this order (R171, R248; log 14), then `k`. -/
def admission (s : State) (k : State → Result) : Result :=
  if s.inHandler then .fault .reentrantTransaction
  else if !s.configured then .refused .notConfigured
  else if s.inTxn then .refused .transactionBusy
  else k s

/-- `CT_BEGIN` in one atomic step: the gate closes, a pending edge is dropped unless edges are kept while masked, the frame
state is forced to idle, and the descriptor and arguments are latched (R165, R166). -/
def ctBegin (it : Item) (s : State) : State :=
  { s with
    gate := false
    edgePending := s.edgePending && s.cfg.edgeLatchWhileMasked
    frame := Frame.idle
    inTxn := true
    txn := { desc := it.desc, args := it.args, results := [], ok := true }
    op := { s.op with post := it.post }
    seq := .ctOpcode .rtsClk }

/-- A composite in whose gap another operation is admitted is put aside until that one has ended (R171, R64; log 13). -/
def suspend (s : State) : State :=
  if s.op.todo.isEmpty then s else { s with suspended := s.op :: s.suspended }

/-- An operation has ended: the composite put aside last, if there is one, goes on (log 13). -/
def resume (s : State) : State :=
  match s.suspended with
  | [] => s
  | o :: rest => { s with op := o, suspended := rest }

/-- Start an operation: after the admission, the first transaction of its expansion begins in the same step and the rest wait
(R165, R210-R215; logs 11, 12), before a composite that was between two of its transactions (log 13). -/
def startOperation (items : List Item) (s : State) : Result :=
  admission s fun s =>
    match items with
    | [] => .next s
    | it :: rest => .next (ctBegin it { suspend s with op := { todo := rest, ok := true, post := .nothing } })

/-- `resp_q <- r` (R215). -/
def SynState.keep (y : SynState) (q : QueryName) (r : Response) : SynState :=
  match q with
  | .version => { y with version := some r }
  | .extCaps => { y with extCaps := some r }
  | .resolution => { y with resolution := some r }
  | .clickpad => { y with clickpad := some r }

/-- `PARSE(resp_VERSION, resp_EXTCAPS, resp_RESOLUTION, resp_CLICKPAD)` (R215, R216). -/
def parseSnapshot (v e r c : Response) : Snapshot where
  xUnitsPerMm := Config.parseXUnitsPerMm v e r c
  yUnitsPerMm := Config.parseYUnitsPerMm v e r c
  clickpadType := Config.parseClickpadType v e r c
  capabilityFlags := Config.parseCapabilityFlags v e r c

/-- `snapshot <- PARSE(...)` of the four raw responses; `none` if one of them is unwritten (R215). -/
def SynState.parse (y : SynState) : Option SynState :=
  match y.version, y.extCaps, y.resolution, y.clickpad with
  | some v, some e, some r, some c => some { y with snapshot := some (parseSnapshot v e r c) }
  | _, _, _, _ => none

/-- A read of an element, and what is done with its value. A read of an unwritten element is the fault `NoValue`: R248 and R42
say so of every element, R38 of the snapshot, U12 of the transaction registers (spec/93_implementation_defined.md). -/
def readElement {α : Type} (element : Option α) (k : α → Result) : Result :=
  match element with
  | some v => k v
  | none => .fault .noValue

/-- What a composite keeps when a transaction ends; `none` exactly if it would read an unwritten element: a response of the
three that is not there, or a raw response that `PARSE` reads (R215, R38, R33; logs 17, 25). -/
def SynState.after (y : SynState) (p : Post) (results : List Byte) : Option SynState :=
  match p, results with
  | .nothing, _ => some y
  | .keep q, r0 :: r1 :: r2 :: _ => some (y.keep q ⟨r0, r1, r2⟩)
  | .keepAndParse q, r0 :: r1 :: r2 :: _ => (y.keep q ⟨r0, r1, r2⟩).parse
  | .initDone, _ => some { y with initDone := true }
  | _, _ => none

/-- The operation's result is returned at `host.result` when no transaction is left, and a composite put aside for it goes on
(R20, R217; logs 13, 16). -/
def returnResult (s : State) : State :=
  if s.op.todo.isEmpty then
    resume { s with resultStream := s.resultStream ++ [{ ok := s.op.ok, bytes := s.txn.results }] }
  else s

/-- `CT_END` in one atomic step: the gate opens and the transaction is over; its `ok` is ANDed into the
operation's (R169, R217). The elements it reads are unwritten in no state that a run reaches (R42, R248). -/
def ctEnd (s : State) : Result :=
  readElement (s.syn.after s.op.post s.txn.results) fun syn =>
    .next (returnResult
      { s with inTxn := false, gate := true, seq := .idle, syn := syn, op := { s.op with ok := s.op.ok && s.txn.ok, post := .nothing } })

end Sys2Proof.Machine
end

