-- ==== Sys2Proof/Machine/Begin.lean ====
section
/-! DEFINITION. `begin`, the block's only reset and setup entry, and the read of the Device Status Snapshot
(spec/70_reset_and_hazards.md R280-R282, spec/10_state.md R38). -/

namespace Sys2Proof.Machine

/-- What `begin` writes, in one atomic step (R280); `seq` is `IDLE` after it (R42), also where a composite was about to begin
its next transaction, which then waits on (log 13). -/
def setUp (clockPin dataPin : PinId) (callback : CallbackId) (s : State) : State :=
  { s with
    link := { clockPin := clockPin, dataPin := dataPin, callback := callback }
    clkPad := .inPullup
    dataPad := .inPullup
    frame := Frame.idle
    edgePending := false
    gate := true
    configured := true
    seq := .idle }

/-- `begin(clock_pin, data_pin, byte_received_callback)` with its three preconditions (R280; their order: log 14). -/
def execBegin (clockPin dataPin : PinId) (callback : CallbackId) (s : State) : Result :=
  if s.inHandler then .fault .reentrantTransaction
  else if s.inTxn then .refused .beginDuringTransaction
  else if clockPin = dataPin then .refused .samePin
  else .next (setUp clockPin dataPin callback s)

/-- The Device Status Snapshot as software reads it: it has a value once the Synaptics initialization has completed
(R38; log 17). -/
def SynState.read (y : SynState) : Option Snapshot := if y.initDone then y.snapshot else none

/-- A read of the snapshot changes nothing, and faults before the initialization has completed (R38, R42, R248, U12). -/
def readSnapshot (s : State) : Result := readElement s.syn.read fun _ => .next s

/-- A caller's request for a procedure or a primitive that is not an operation (R172, R248; log 14). -/
def notAnOperation (s : State) : Result :=
  if s.inHandler then .fault .reentrantTransaction else .refused .notAnOperation

end Sys2Proof.Machine
end

