-- ==== Sys2Proof/Machine/Commands.lean ====
section
/-! DEFINITION. The PS/2 commands: each is one command transaction with a fixed descriptor, and the generic command
takes any (spec/43_commands.md R190-R197, spec/42_transmit.md R165, R171). The meaning of a command is what its
request does in its step, the admission and `CT_BEGIN`; the engine's steps then carry the transaction out (log 11). -/

namespace Sys2Proof.Machine

/-- A transaction of which nothing but `ok` and the results is kept. -/
def item (desc : Descriptor) (args : List Byte) : Item := { desc := desc, args := args, post := .nothing }

/-- `SETSCALE11`: `command(0x00E6, [])` (R190). -/
def execSetscale11 (s : State) : Result := startOperation [item descSetscale11 []] s

/-- `SETRATE(r)`: `command(0x10F3, [r])` (R191). -/
def execSetrate (r : Byte) (s : State) : Result := startOperation [item descSetrate [r]] s

/-- `ENABLE`: `command(0x00F4, [])` (R192). -/
def execEnable (s : State) : Result := startOperation [item descEnable []] s

/-- `DISABLE`: `command(0x00F5, [])` (R193). -/
def execDisable (s : State) : Result := startOperation [item descDisable []] s

/-- `RESET_BAT`: `command(0x02FF, [])` (R194). -/
def execResetBat (s : State) : Result := startOperation [item descResetBat []] s

/-- `SETRES(a)`: `command(0x10E8, [a])` (R195). -/
def execSetres (a : Byte) (s : State) : Result := startOperation [item descSetres [a]] s

/-- `GETINFO`: `command(0x03E9, [])` (R196). -/
def execGetinfo (s : State) : Result := startOperation [item descGetinfo []] s

/-- `command(desc, args)` with any descriptor (R165, R81); a wrong argument count is refused after the other
checks (R171; log 14). -/
def execCommand (desc : Descriptor) (args : List Byte) (s : State) : Result :=
  if args.length = sendCount desc then startOperation [item desc args] s
  else admission s fun _ => .refused .argCountMismatch

end Sys2Proof.Machine
end

