-- ==== Sys2Proof/Machine/Synaptics.lean ====
section
/-! DEFINITION. The Synaptics Device Command Layer: each composite is a fixed series of command transactions
(spec/44_synaptics.md R210-R219). Its request starts the first; the engine's steps carry out the rest (log 12). -/

namespace Sys2Proof.Machine

/-- `encoded(b)`: four `SETRES` with the slices of `b` (R210). -/
def encodedItems (b : Byte) : List Item :=
  [item descSetres [slice b 0], item descSetres [slice b 1], item descSetres [slice b 2], item descSetres [slice b 3]]

/-- `query(c)`: `encoded(c)`, then `GETINFO`, of which `post` is kept (R212). -/
def queryItems (c : Byte) (post : Post) : List Item :=
  encodedItems c ++ [{ desc := descGetinfo, args := [], post := post }]

/-- `set_mode(m, r)`: `SETSCALE11` twice, `encoded(m)`, `SETRATE(r)` (R213). -/
def setModeItems (m r : Byte) : List Item :=
  [item descSetscale11 [], item descSetscale11 []] ++ encodedItems m ++ [item descSetrate [r]]

/-- `mode_program`: `DISABLE`, `set_mode(0xC5, 0x14)`, `set_mode(0x03, 0xC8)`, `ENABLE`, of which `post` is kept (R214). -/
def modeProgramItems (post : Post) : List Item :=
  [item descDisable []] ++ setModeItems 0xC5#8 0x14#8 ++ setModeItems 0x03#8 0xC8#8 ++
    [{ desc := descEnable, args := [], post := post }]

/-- `syn_init`: the four queries, the snapshot parsed when the last one ends, then `mode_program` (R215). -/
def synInitItems (cfg : Config.Params) : List Item :=
  queryItems cfg.qVersion (.keep .version) ++ queryItems cfg.qExtCaps (.keep .extCaps) ++
    queryItems cfg.qResolution (.keep .resolution) ++ queryItems cfg.qClickpad (.keepAndParse .clickpad) ++
    modeProgramItems .initDone

/-- The series of command transactions that an operation stands for (R85, R190-R196, R210-R215). -/
def expansion (cfg : Config.Params) : Instr → List Item
  | .setscale11 => [item descSetscale11 []]
  | .setrate r => [item descSetrate [r]]
  | .enable => [item descEnable []]
  | .disable => [item descDisable []]
  | .resetBat => [item descResetBat []]
  | .setres a => [item descSetres [a]]
  | .getinfo => [item descGetinfo []]
  | .command desc args => [item desc args]
  | .encoded b => encodedItems b
  | .query c => queryItems c .nothing
  | .setMode m r => setModeItems m r
  | .modeProgram => modeProgramItems .nothing
  | .synInit => synInitItems cfg

/-- `encoded(b)` (R210). -/
def execEncoded (b : Byte) (s : State) : Result := startOperation (encodedItems b) s

/-- `query(c)` (R212). -/
def execQuery (c : Byte) (s : State) : Result := startOperation (queryItems c .nothing) s

/-- `set_mode(m, r)` (R213). -/
def execSetMode (m r : Byte) (s : State) : Result := startOperation (setModeItems m r) s

/-- `mode_program` (R214). -/
def execModeProgram (s : State) : Result := startOperation (modeProgramItems .nothing) s

/-- `syn_init` (R215). -/
def execSynInit (s : State) : Result := startOperation (synInitItems s.cfg) s

end Sys2Proof.Machine
end

