-- ==== Sys2Proof/Machine/Dispatch.lean ====
section
/-! DEFINITION. The one match over the operations of the opcode table. -/

namespace Sys2Proof.Machine

def exec (i : Instr) (s : State) : Host.Outcome State Fault Refusal :=
  match i with
  | .setscale11 => Sys2Proof.Machine.execSetscale11 s
  | .setrate r => Sys2Proof.Machine.execSetrate r s
  | .enable => Sys2Proof.Machine.execEnable s
  | .disable => Sys2Proof.Machine.execDisable s
  | .resetBat => Sys2Proof.Machine.execResetBat s
  | .setres a => Sys2Proof.Machine.execSetres a s
  | .getinfo => Sys2Proof.Machine.execGetinfo s
  | .command desc args => Sys2Proof.Machine.execCommand desc args s
  | .encoded b => Sys2Proof.Machine.execEncoded b s
  | .query c => Sys2Proof.Machine.execQuery c s
  | .setMode m r => Sys2Proof.Machine.execSetMode m r s
  | .modeProgram => Sys2Proof.Machine.execModeProgram s
  | .synInit => Sys2Proof.Machine.execSynInit s

end Sys2Proof.Machine
end

