-- ==== Sys2Proof/Machine/Receive.lean ====
section
/-! DEFINITION. The receive state machine: one step of the receive handler (spec/41_receive.md R121-R131). -/

namespace Sys2Proof.Machine

/-- State 0, the start bit: a wrong one is reported, and the frame goes on (R124). -/
def takeStart (d : Level) (s : State) : State :=
  let s := check (startOk d) .startBitError .async (.bit d) s
  { s with frame := { s.frame with bitIndex := 1#4 } }

/-- States 1..8, payload bit `bit_index - 1` (R125). -/
def takePayload (d : Level) (s : State) : State :=
  { s with frame :=
    { bitIndex := s.frame.bitIndex + 1#4
      accumulatedByte := putBit s.frame.accumulatedByte (s.frame.bitIndex.toNat - 1) d
      runningParity := s.frame.runningParity ^^ d } }

/-- State 9, the parity bit (R126). -/
def takeParity (d : Level) (s : State) : State :=
  let p := s.frame.runningParity ^^ d
  let s := check (parityOk p) .parityError .async (.byte s.frame.accumulatedByte) s
  { s with frame := { s.frame with bitIndex := 10#4, runningParity := p } }

/-- State 10, the stop bit: report, then deliver whatever was assembled, then the frame state is idle (R127). -/
def takeStop (callback : Option Request) (d : Level) (s : State) : Result :=
  match deliver callback s.frame.accumulatedByte
      (check (stopOk d) .stopBitError .async (.byte s.frame.accumulatedByte) s) with
  | .next s => .next { s with frame := Frame.idle }
  | .fault f => .fault f
  | .refused r => .refused r

/-- The bit `d` consumed at the current frame position (R123-R128). `bit_index` in 11..15 is the fault of R134. -/
def consumeBit (callback : Option Request) (d : Level) (s : State) : Result :=
  if s.frame.bitIndex.toNat = 0 then .next (takeStart d s)
  else if s.frame.bitIndex.toNat ≤ 8 then .next (takePayload d s)
  else if s.frame.bitIndex.toNat = 9 then .next (takeParity d s)
  else if s.frame.bitIndex.toNat = 10 then takeStop callback d s
  else .fault .bitIndexOutOfRange

/-- The whole step (R129): the spurious-trigger filter (R122), then the data sample (R123), then the state's action. -/
def receiveStep (callback : Option Request) (s : State) : Result :=
  if sampleLevel .clk s = HIGH then .next (sampled .clk s)
  else consumeBit callback (sampleLevel .data (sampled .clk s)) (sampled .data (sampled .clk s))

/-- Handler dispatch: one atomic step when it is enabled (R121); otherwise there is no handler step to take (log 9). -/
def handlerStep (callback : Option Request) (s : State) : Result :=
  if s.handlerEnabled then
    match receiveStep callback (enterHandler s) with
    | .next t => .next (leaveHandler t)
    | .fault f => .fault f
    | .refused r => .refused r
  else .next s

end Sys2Proof.Machine
end

