-- ==== Sys2Proof/Machine/Sequencer.lean ====
section
/-! DEFINITION. The order of the sequencer positions: which position follows which, in the order of R157, R163 and
R165 (spec/42_transmit.md R173). -/

namespace Sys2Proof.Machine

/-- The position after `p` in `read_byte_sync`; `none` when the procedure returns (R163). -/
def ReadPos.next : ReadPos → Option ReadPos
  | .waitLow k .enter => some (.waitLow k .poll)
  | .waitLow k .poll => some (.sample k)
  | .sample k => some (.waitHigh k .enter)
  | .waitHigh k .enter => some (.waitHigh k .poll)
  | .waitHigh k .poll => if h : k.val + 1 < 11 then some (.waitLow ⟨k.val + 1, h⟩ .enter) else some .pulseLow
  | .pulseLow => some (.pulseHold .enter)
  | .pulseHold .enter => some (.pulseHold .poll)
  | .pulseHold .poll => some .pulseRel
  | .pulseRel => none

/-- The first position of `read_byte_sync` (R158). -/
def ReadPos.first : ReadPos := .waitLow 0 .enter

/-- The position after `p` in `write_byte`; `none` when the procedure returns (R157). -/
def WritePos.next : WritePos → Option WritePos
  | .rtsClk => some (.rtsHold .enter)
  | .rtsHold .enter => some (.rtsHold .poll)
  | .rtsHold .poll => some .rtsData
  | .rtsData => some .rtsRel
  | .rtsRel => some (.bitWaitLow 0 .enter)
  | .bitWaitLow i .enter => some (.bitWaitLow i .poll)
  | .bitWaitLow i .poll => some (.bitDrive i)
  | .bitDrive i => some (.bitWaitHigh i .enter)
  | .bitWaitHigh i .enter => some (.bitWaitHigh i .poll)
  | .bitWaitHigh i .poll =>
    if h : i.val + 1 < 10 then some (.bitWaitLow ⟨i.val + 1, h⟩ .enter) else some (.lcWaitLow .enter)
  | .lcWaitLow .enter => some (.lcWaitLow .poll)
  | .lcWaitLow .poll => some .lcSample
  | .lcSample => some (.lcWaitHigh .enter)
  | .lcWaitHigh .enter => some (.lcWaitHigh .poll)
  | .lcWaitHigh .poll => some (.ack ReadPos.first)
  | .ack p =>
    match p.next with
    | some q => some (.ack q)
    | none => some .check
  | .check => none

/-- Where the transaction goes when `j` responses have been read: the next response, or `CT_END` (R165, R168). -/
def Seq.afterReads (nRecv j : Nat) : Seq := if j < nRecv then .ctResp j ReadPos.first else .ctEnd

/-- Where it goes when the opcode and `i` arguments have been written: the next argument, or the responses (R165, R167). -/
def Seq.afterWrites (nSend nRecv i : Nat) : Seq := if i < nSend then .ctArg i .rtsClk else Seq.afterReads nRecv 0

/-- The position after `p` in a transaction of `nSend` arguments and `nRecv` responses (R165, R173). -/
def Seq.next (nSend nRecv : Nat) : Seq → Seq
  | .idle => .idle
  | .ctBegin => .ctOpcode .rtsClk
  | .ctOpcode p =>
    match p.next with
    | some q => .ctOpcode q
    | none => Seq.afterWrites nSend nRecv 0
  | .ctArg i p =>
    match p.next with
    | some q => .ctArg i q
    | none => Seq.afterWrites nSend nRecv (i + 1)
  | .ctResp j p =>
    match p.next with
    | some q => .ctResp j q
    | none => Seq.afterReads nRecv (j + 1)
  | .ctEnd => .idle

end Sys2Proof.Machine
end

