-- ==== Sys2Proof/Machine/Transmit.lean ====
section
/-! DEFINITION. The transaction engine: what the primitive at each position of `read_byte_sync` and `write_byte` does,
and one engine step (spec/42_transmit.md R150-R169, spec/10_state.md R37). -/

namespace Sys2Proof.Machine

/-- The initial registers of `read_byte_sync`: `rb_byte <- 0x00; rb_parity <- 0` (R158, R35). -/
def readStart (s : State) : State := { s with rb := { s.rb with byte := 0x00#8, parity := false } }

/-- What the sample at frame position `k` does with the bit `rb_bit` just read (R158-R161). -/
def readBit (k : Nat) (d : Level) (s : State) : State :=
  if k = 0 then
    check (startOk d) .startBitError .sync (.bit d) s
  else if k ≤ 8 then
    { s with rb := { s.rb with byte := putBit s.rb.byte (k - 1) d, parity := s.rb.parity ^^ d } }
  else if k = 9 then
    check (parityOk (s.rb.parity ^^ d)) .parityError .sync (.byte s.rb.byte)
      { s with rb := { s.rb with parity := s.rb.parity ^^ d } }
  else
    check (stopOk d) .stopBitError .sync (.byte s.rb.byte) s

/-- `RB_BIT(k, SAMPLE)`: `rb_bit <- sample(DATA)`, then its check (R158-R161). -/
def readSample (k : Nat) (s : State) : State :=
  readBit k (sampleLevel .data s) { sampled .data s with rb := { s.rb with bit := sampleLevel .data s } }

/-- The primitive at a position of `read_byte_sync` (R163). The registers start with the first `W_ENTER` (log 15). -/
def readEffect (p : ReadPos) (s : State) : State :=
  match p with
  | .waitLow k .enter => waitEnter LOW (if k.val = 0 then readStart s else s)
  | .waitLow _ .poll => waitPoll LOW s
  | .sample k => readSample k.val s
  | .waitHigh _ .enter => waitEnter HIGH s
  | .waitHigh _ .poll => waitPoll HIGH s
  | .pulseLow => driveLow .clk s
  | .pulseHold .enter => delayEnter s
  | .pulseHold .poll => s
  | .pulseRel => releaseHigh .clk s

/-- Whether that primitive leaves the position: a poll that has not ended stays (R37, R106). -/
def readDone (p : ReadPos) (s : State) : Bool :=
  match p with
  | .waitLow _ .poll => (pollClock LOW s).done
  | .waitHigh _ .poll => (pollClock HIGH s).done
  | .pulseHold .poll => (pollDelay s.cfg.tReadyPulse s).done
  | .waitLow _ .enter | .sample _ | .waitHigh _ .enter | .pulseLow | .pulseHold .enter | .pulseRel => true

/-- The initial registers of `write_byte(b)`: `wb_byte <- b; wb_parity <- 1` (R150). -/
def writeStart (b : Byte) (s : State) : State := { s with wb := { s.wb with byte := b, parity := true } }

/-- `WB_BIT(i, DRIVE)`: a data bit and its parity for `i` in 0..7, the parity bit for 8, the stop bit for 9 (R152-R154). -/
def writeBit (i : Nat) (s : State) : State :=
  if i ≤ 7 then
    { setData (bitOf s.wb.byte i) s with wb := { s.wb with parity := s.wb.parity ^^ bitOf s.wb.byte i } }
  else if i = 8 then setData s.wb.parity s
  else setData true s

/-- `WB_LC(SAMPLE)`: `wb_lc <- sample(DATA)`, then its check (R155). -/
def lineControl (s : State) : State :=
  check (lineControlOk (sampleLevel .data s)) .lineControlError .sync (.bit (sampleLevel .data s))
    { sampled .data s with wb := { s.wb with lc := sampleLevel .data s } }

/-- `WB_CHECK`: a wrong acknowledgement is reported, and the write's result is ANDed into `ok` (R156, R167). -/
def writeCheck (s : State) : State :=
  { check (ackOk s.wb.ack) .nackError .sync (.byte s.wb.ack) s with
    txn := { s.txn with ok := s.txn.ok && ackOk s.wb.ack } }

/-- `wb_ack <- read_byte_sync()`, in the step in which that procedure returns (R156; log 15). -/
def takeAck (p : ReadPos) (s : State) : State :=
  if p = .pulseRel then { s with wb := { s.wb with ack := s.rb.byte } } else s

/-- The primitive at a position of `write_byte(b)` (R157). The registers start with `WB_RTS_CLK` (log 15). -/
def writeEffect (b : Byte) (p : WritePos) (s : State) : State :=
  match p with
  | .rtsClk => driveLow .clk (writeStart b s)
  | .rtsHold .enter => delayEnter s
  | .rtsHold .poll => s
  | .rtsData => driveLow .data s
  | .rtsRel => releaseHigh .clk s
  | .bitWaitLow _ .enter => waitEnter LOW s
  | .bitWaitLow _ .poll => waitPoll LOW s
  | .bitDrive i => writeBit i.val s
  | .bitWaitHigh _ .enter => waitEnter HIGH s
  | .bitWaitHigh _ .poll => waitPoll HIGH s
  | .lcWaitLow .enter => waitEnter LOW s
  | .lcWaitLow .poll => waitPoll LOW s
  | .lcSample => lineControl s
  | .lcWaitHigh .enter => waitEnter HIGH s
  | .lcWaitHigh .poll => waitPoll HIGH s
  | .ack q => takeAck q (readEffect q s)
  | .check => writeCheck s

/-- Whether that primitive leaves the position (R37, R106). -/
def writeDone (p : WritePos) (s : State) : Bool :=
  match p with
  | .rtsHold .poll => (pollDelay s.cfg.tRts s).done
  | .bitWaitLow _ .poll => (pollClock LOW s).done
  | .bitWaitHigh _ .poll => (pollClock HIGH s).done
  | .lcWaitLow .poll => (pollClock LOW s).done
  | .lcWaitHigh .poll => (pollClock HIGH s).done
  | .ack q => readDone q s
  | .rtsClk | .rtsHold .enter | .rtsData | .rtsRel | .bitWaitLow _ .enter | .bitDrive _ => true
  | .bitWaitHigh _ .enter | .lcWaitLow .enter | .lcSample | .lcWaitHigh .enter | .check => true

/-- `results[j] <- read_byte_sync()`, in the step in which that procedure returns; responses are kept in arrival order
(R168; logs 15, 22). -/
def takeResponse (p : ReadPos) (s : State) : State :=
  if p = .pulseRel then { s with txn := { s.txn with results := s.txn.results ++ [s.rb.byte] } } else s

/-- Advance to the next position in program order if the position is left (R37). -/
def advance (done : Bool) (s : State) : State :=
  if done then { s with seq := s.seq.next (sendCount s.txn.desc) (recvCount s.txn.desc) } else s

/-- One step of the transaction engine: the primitive at `seq` (R37, R165). With `seq = IDLE` it goes to the next
transaction of the running composite, if there is one, and otherwise it has nothing to do (R173, R218; logs 9, 12). The
argument it sends is unwritten in no state that a run reaches (R33, R42). -/
def engineStep (s : State) : Result :=
  match s.seq with
  | .idle => .next (if s.op.todo.isEmpty then s else { s with seq := .ctBegin })
  | .ctBegin =>
    match s.op.todo with
    | [] => .next { s with seq := .idle }
    | it :: rest => .next (ctBegin it { s with op := { s.op with todo := rest } })
  | .ctOpcode p => .next (advance (writeDone p s) (writeEffect (opcodeByte s.txn.desc) p s))
  | .ctArg i p => readElement s.txn.args[i]? fun b => .next (advance (writeDone p s) (writeEffect b p s))
  | .ctResp _ p => .next (advance (readDone p s) (takeResponse p (readEffect p s)))
  | .ctEnd => ctEnd s

end Sys2Proof.Machine
end

