-- ==== Sys2Proof/Machine/Events.lean ====
section
/-! DEFINITION. What one element of the interleaving does: a request at `host.op`, and each agent's step; where the next
element comes from; and the edge detector's look at the step (spec/10_state.md R20, spec/20_memory.md R63,
spec/40_link.md R109). -/

namespace Sys2Proof.Machine

/-- A request whose words the decoder rejects: refused after the checks that every operation passes (R171; log 14). -/
def rejectWords (e : DecodeError) (s : State) : Result :=
  match e with
  | .argCountMismatch => admission s fun _ => .refused .argCountMismatch

/-- A request at `host.op` (R20, R171, R172, R280). -/
def requestStep (r : Request) (s : State) : Result :=
  match r with
  | .op w =>
    match decode w with
    | .ok i => exec i s
    | .error e => rejectWords e s
  | .begin clockPin dataPin callback => execBegin clockPin dataPin callback s
  | .writeByte _ => notAnOperation s
  | .readByteSync => notAnOperation s
  | .link _ => notAnOperation s

/-- Time advances (R36). -/
def advanceTime (d : Time) (s : State) : State := { s with now := s.now + d }

/-- One agent's step. -/
def applyEvent (e : Event) (s : State) : Result :=
  match e with
  | .device l low => .next (s.setDevLow l low)
  | .time d => .next (advanceTime d s)
  | .engine => engineStep s
  | .handler callback => handlerStep callback s
  | .caller r => requestStep r s
  | .readSnapshot => readSnapshot s

/-- The edge detector's look at a step that has a next state (R109, R120). -/
def observed (before : State) : Result → Result
  | .next after => .next (latchEdge before after)
  | .fault f => .fault f
  | .refused r => .refused r

/-- The next element of the interleaving: the first of those listed, else a free choice (R63, R64; log 7). -/
def nextEvent (s : State) : Event × State :=
  match s.inputs with
  | e :: rest => (e, { s with inputs := rest })
  | [] => (Config.freeEvent s.choices, { s with choices := s.choices + 1 })

/-- A caller's request for an operation is the next element of the interleaving. -/
def withRequest (s : State) (w : OpWords) : State := { s with inputs := .caller (.op w) :: s.inputs }

end Sys2Proof.Machine
end

