-- ==== Sys2Proof/Machine/Step.lean ====
section
/-! DEFINITION. One step of the machine: the next element of the one interleaving of all agents (spec/20_memory.md R63). -/

namespace Sys2Proof.Machine

/-- One step: the next event, its effect, and the edge detector's look at it. -/
def step (s : State) : Host.Outcome State Fault Refusal :=
  observed (nextEvent s).2 (applyEvent (nextEvent s).1 (nextEvent s).2)

/-- `s` with the operation whose bits are `w` requested at `host.op` as the next step (logs 19, 20). -/
def State.withFetchWord (s : State) (nbits w : Nat) : State := withRequest s (tableWords nbits w)

end Sys2Proof.Machine
end

