-- ==== Sys2Proof/Safety.lean ====
section
/-! DEFINITION. What a safe state and a run are, in the terms the statements use: the state before `begin`, the state in
which an operation is admitted, the invariants that every step keeps, runs over a list of events, and the event lists of
the devices and schedules that the statements speak of (spec/41_receive.md R132, spec/42_transmit.md R165-R173,
spec/60_exceptions.md R254, spec/70_reset_and_hazards.md R281). -/

namespace Sys2Proof.Machine

/-! ## States -/

/-- Before the first `begin`: not configured, the gate closed, no edge pending, nothing running, nothing delivered or
logged; the pads are a draw and the frame registers unwritten, so neither is constrained (R281, R42). -/
structure State.BeforeBegin (s : State) : Prop where
  notConfigured : s.configured = false
  gateClosed : s.gate = false
  noEdge : s.edgePending = false
  noTxn : s.inTxn = false
  noHandler : s.inHandler = false
  seqIdle : s.seq = .idle
  noOperation : s.op = Operation.none
  noneSuspended : s.suspended = []
  unwritten : s.syn = SynState.unwritten
  noBytes : s.rxStream = []
  noReports : s.diagLog = []
  noResults : s.resultStream = []

/-- An operation is admitted: `configured = 1`, `in_txn = 0`, `in_handler = 0` (R171). -/
structure State.Ready (s : State) : Prop where
  configured : s.configured = true
  noTxn : s.inTxn = false
  noHandler : s.inHandler = false

/-- The transactions still to begin, those of the composites put aside last (R173, R217; log 13). -/
def State.waiting (s : State) : List Item := s.op.todo ++ s.suspended.flatMap Operation.todo

/-! ## The receive frame (R132) -/

/-- The invariants I1-I3 of R132. At `bit_index = 10` the running parity also holds the parity bit just received. -/
structure State.FrameInv (s : State) : Prop where
  /-- I1. -/
  index : s.frame.bitIndex.toNat ≤ 10
  /-- I2, at `bit_index = 0`. -/
  emptyAtStart : s.frame.bitIndex.toNat = 0 → s.frame.accumulatedByte = 0#8
  /-- I2, at `bit_index` in 1..10. -/
  zeroBeyond : 1 ≤ s.frame.bitIndex.toNat → s.frame.accumulatedByte >>> (s.frame.bitIndex.toNat - 1) = 0#8
  /-- I3, up to the parity position. -/
  parity : s.frame.bitIndex.toNat ≤ 9 → s.frame.runningParity = byteParity s.frame.accumulatedByte

/-! ## The two modes (R254) -/

/-- The positions at which a transaction is in progress. -/
def Seq.inTransaction : Seq → Bool
  | .idle | .ctBegin => false
  | .ctOpcode _ | .ctArg _ _ | .ctResp _ _ | .ctEnd => true

/-- The modes are never mixed: the gate is open exactly outside a transaction, once configured, and a transaction runs
with the frame state idle (R27, R31, R62, R254, R166). -/
structure State.ModeInv (s : State) : Prop where
  handlerOff : s.inHandler = false
  gate : s.gate = (s.configured && !s.inTxn)
  txnConfigured : s.inTxn = true → s.configured = true
  txnSeq : s.inTxn = s.seq.inTransaction
  frameIdle : s.inTxn = true → s.frame = Frame.idle
  edgeConfigured : s.edgePending = true → s.configured = true
  beginHasItem : s.seq = .ctBegin → s.op.todo ≠ []
  waitingConfigured : s.waiting ≠ [] → s.configured = true
  suspendedWait : ∀ o ∈ s.suspended, o.todo ≠ []
  suspendedUnder : s.inTxn = false → s.op.todo = [] → s.suspended = []

/-! ## The transaction registers (R33, R165) -/

/-- What is kept at a transaction's end fits its number of response bytes. -/
def Post.counted (p : Post) (n : Nat) : Prop :=
  match p with
  | .keep _ | .keepAndParse _ => n = 3
  | .nothing | .initDone => True

/-- A completed initialization has a snapshot to read (R38, R215). -/
def SynState.complete (y : SynState) : Prop := y.initDone = true → y.snapshot.isSome = true

/-- Now and after each of the things still to be kept, whatever responses come, a completed initialization has its snapshot;
and each of them finds what it reads (R38, R215). -/
def postsReady (y : SynState) : List Post → Prop
  | [] => y.complete
  | p :: rest =>
    y.complete ∧ ∀ results, p.counted results.length → ∃ y', y.after p results = some y' ∧ postsReady y' rest

/-- The things still to be kept, the transaction in progress first. -/
def State.posts (s : State) : List Post := (if s.inTxn then [s.op.post] else []) ++ s.waiting.map Item.post

/-- The counts of the position: arguments not past `n_send`, responses not past `n_recv`, and as many results as responses
have been read (R165, R167, R168). -/
def Seq.counted (q : Seq) (t : Txn) : Prop :=
  match q with
  | .idle | .ctBegin => True
  | .ctOpcode _ => t.results = []
  | .ctArg i _ => i < sendCount t.desc ∧ t.results = []
  | .ctResp j _ => j < recvCount t.desc ∧ t.results.length = j
  | .ctEnd => t.results.length = recvCount t.desc

/-- The transaction registers agree with the position and with the operation (R33, R165-R168, R215). -/
structure State.TxnInv (s : State) : Prop where
  argCount : s.inTxn = true → s.txn.args.length = sendCount s.txn.desc
  position : s.seq.counted s.txn
  itemArgs : ∀ it ∈ s.waiting, it.args.length = sendCount it.desc
  itemPosts : ∀ it ∈ s.waiting, it.post.counted (recvCount it.desc)
  post : s.inTxn = true → s.op.post.counted (recvCount s.txn.desc)
  ready : postsReady s.syn s.posts

/-! ## Polls and the path of a transaction (R173) -/

/-- The level that a `W_POLL` of `read_byte_sync` waits for. -/
def ReadPos.awaits : ReadPos → Option Level
  | .waitLow _ .poll => some LOW
  | .waitHigh _ .poll => some HIGH
  | _ => none

/-- The level that a `W_POLL` of `write_byte` waits for. -/
def WritePos.awaits : WritePos → Option Level
  | .bitWaitLow _ .poll | .lcWaitLow .poll => some LOW
  | .bitWaitHigh _ .poll | .lcWaitHigh .poll => some HIGH
  | .ack p => p.awaits
  | _ => none

/-- The level that the position waits for, if it is a `W_POLL` (R105). -/
def Seq.awaits : Seq → Option Level
  | .ctOpcode p | .ctArg _ p => p.awaits
  | .ctResp _ p => p.awaits
  | _ => none

/-- The time that the position holds for, if it is a `D_POLL` (R107, R151, R162). -/
def Seq.holds (c : Config.Params) : Seq → Option Time
  | .ctOpcode (.rtsHold .poll) | .ctArg _ (.rtsHold .poll) => some c.tRts
  | .ctOpcode (.ack (.pulseHold .poll)) | .ctArg _ (.ack (.pulseHold .poll)) => some c.tReadyPulse
  | .ctResp _ (.pulseHold .poll) => some c.tReadyPulse
  | _ => none

/-- The level that a `W_ENTER` of `read_byte_sync` begins to wait for. -/
def ReadPos.enters : ReadPos → Option Level
  | .waitLow _ .enter => some LOW
  | .waitHigh _ .enter => some HIGH
  | _ => none

/-- The level that a `W_ENTER` of `write_byte` begins to wait for. -/
def WritePos.enters : WritePos → Option Level
  | .bitWaitLow _ .enter | .lcWaitLow .enter => some LOW
  | .bitWaitHigh _ .enter | .lcWaitHigh .enter => some HIGH
  | .ack p => p.enters
  | _ => none

/-- The level that the position begins to wait for, if it begins a `wait_clock` call (R83, R105). -/
def Seq.enters : Seq → Option Level
  | .ctOpcode p | .ctArg _ p => p.enters
  | .ctResp _ p => p.enters
  | _ => none

/-- Whether the position is a `D_ENTER` (R107). -/
def Seq.entersHold : Seq → Bool
  | .ctOpcode (.rtsHold .enter) | .ctArg _ (.rtsHold .enter) => true
  | .ctOpcode (.ack (.pulseHold .enter)) | .ctArg _ (.ack (.pulseHold .enter)) => true
  | .ctResp _ (.pulseHold .enter) => true
  | _ => false

/-- The `n` positions from `q` on, in program order. -/
def Seq.walk (nSend nRecv : Nat) : Nat → Seq → List Seq
  | 0, _ => []
  | n + 1, q => q :: Seq.walk nSend nRecv n (q.next nSend nRecv)

/-- The positions of `read_byte_sync` in the order of R163. -/
def ReadPos.path : List ReadPos :=
  (List.finRange 11).flatMap (fun k =>
    [.waitLow k .enter, .waitLow k .poll, .sample k, .waitHigh k .enter, .waitHigh k .poll]) ++
  [.pulseLow, .pulseHold .enter, .pulseHold .poll, .pulseRel]

/-- The positions of `write_byte` in the order of R157. -/
def WritePos.path : List WritePos :=
  [.rtsClk, .rtsHold .enter, .rtsHold .poll, .rtsData, .rtsRel] ++
  (List.finRange 10).flatMap (fun i =>
    [.bitWaitLow i .enter, .bitWaitLow i .poll, .bitDrive i, .bitWaitHigh i .enter, .bitWaitHigh i .poll]) ++
  [.lcWaitLow .enter, .lcWaitLow .poll, .lcSample, .lcWaitHigh .enter, .lcWaitHigh .poll] ++
  ReadPos.path.map .ack ++ [.check]

/-- The positions of a transaction after `CT_BEGIN` in the order of R165: the opcode write, a write for each argument, a read
for each response, `CT_END`. -/
def Seq.path (nSend nRecv : Nat) : List Seq :=
  WritePos.path.map .ctOpcode ++
  (List.range nSend).flatMap (fun i => WritePos.path.map (.ctArg i)) ++
  (List.range nRecv).flatMap (fun j => ReadPos.path.map (.ctResp j)) ++ [.ctEnd]

/-! ## What stands on the lines during a write (R151-R155) and a read (R158-R162) -/

/-- The pad mode of `CLK` that a position of `read_byte_sync` finds; `none` where the position before decides (R163). -/
def ReadPos.clkPad : ReadPos → Option Pad
  | .waitLow _ .enter => none
  | .waitLow _ .poll | .sample _ | .waitHigh _ .enter => some .inPullup
  | .waitHigh _ .poll | .pulseLow => some .inFloat
  | .pulseHold _ | .pulseRel => some .driveLow

/-- The pad mode of `CLK` that a position of `write_byte` finds (R157). -/
def WritePos.clkPad : WritePos → Option Pad
  | .rtsClk => none
  | .rtsHold _ | .rtsData | .rtsRel => some .driveLow
  | .bitWaitLow _ .enter | .lcWaitLow .enter => none
  | .bitWaitLow _ .poll | .bitDrive _ | .bitWaitHigh _ .enter => some .inPullup
  | .lcWaitLow .poll | .lcSample | .lcWaitHigh .enter => some .inPullup
  | .bitWaitHigh _ .poll | .lcWaitHigh .poll => some .inFloat
  | .ack p => p.clkPad
  | .check => some .inPullup

/-- The pad mode of `DATA` that a position of `write_byte(b)` finds: the frame of `b`, one position after another, then the
line is left to the device (R74, R151-R155). -/
def WritePos.dataPad (b : Byte) : WritePos → Option Pad
  | .rtsClk | .rtsHold _ | .rtsData => none
  | .rtsRel => some .driveLow
  | .bitWaitLow i _ | .bitDrive i => some (padOfBit (frameBit b i.val))
  | .bitWaitHigh i _ => some (padOfBit (frameBit b (i.val + 1)))
  | .lcWaitLow _ | .lcSample => some (padOfBit (frameBit b 10))
  | .lcWaitHigh _ | .ack _ | .check => some .inFloat

/-- How many data bits `wb_parity` has taken in at a position (R152). -/
def WritePos.folded : WritePos → Nat
  | .rtsClk | .rtsHold _ | .rtsData | .rtsRel => 0
  | .bitWaitLow i _ | .bitDrive i => min i.val 8
  | .bitWaitHigh i _ => min (i.val + 1) 8
  | .lcWaitLow _ | .lcSample | .lcWaitHigh _ | .ack _ | .check => 8

/-- At a position of `write_byte(b)` past the first, the registers and the pads are as R150-R155 leave them. -/
structure State.WritingInv (s : State) (b : Byte) (p : WritePos) : Prop where
  byte : p ≠ .rtsClk → s.wb.byte = b
  parity : p ≠ .rtsClk → s.wb.parity = (true ^^ prefixParity b p.folded)
  clk : ∀ m, p.clkPad = some m → s.clkPad = m
  data : ∀ m, p.dataPad b = some m → s.dataPad = m

/-- How many frame positions have been sampled at a position of `read_byte_sync` (R158-R161). -/
def ReadPos.sampled : ReadPos → Nat
  | .waitLow k _ | .sample k => k.val
  | .waitHigh k _ => k.val + 1
  | .pulseLow | .pulseHold _ | .pulseRel => 11

/-- At a position of `read_byte_sync` past the first, the registers hold the payload bits sampled so far (R159, R160). -/
structure State.ReadingInv (s : State) (p : ReadPos) : Prop where
  zeroBeyond : p ≠ ReadPos.first → s.rb.byte >>> (p.sampled - 1) = 0#8
  parity : p ≠ ReadPos.first → p.sampled ≤ 9 → s.rb.parity = byteParity s.rb.byte

/-- The byte and the position of the write in progress, if one is. -/
def State.writing (s : State) : Option (Byte × WritePos) :=
  match s.seq with
  | .ctOpcode p => some (opcodeByte s.txn.desc, p)
  | .ctArg i p => s.txn.args[i]?.map fun b => (b, p)
  | .idle | .ctBegin | .ctResp _ _ | .ctEnd => none

/-- The position of the synchronous read in progress, if one is. -/
def State.reading (s : State) : Option ReadPos :=
  match s.seq with
  | .ctOpcode (.ack p) | .ctArg _ (.ack p) | .ctResp _ p => some p
  | _ => none

/-- The lines and the registers during a transaction, and the pads that the reads and `CT_END` find (R157, R163, R169). -/
structure State.WireInv (s : State) : Prop where
  writing : ∀ b p, s.writing = some (b, p) → s.WritingInv b p
  reading : ∀ p, s.reading = some p → s.ReadingInv p
  response : ∀ j p, s.seq = .ctResp j p → s.dataPad = .inFloat ∧ ∀ m, p.clkPad = some m → s.clkPad = m
  atEnd : s.seq = .ctEnd → s.clkPad = .inPullup ∧ s.dataPad = .inFloat

/-! ## The whole invariant -/

/-- Every invariant of the block together, with the time bounds of R36 and R8. -/
structure State.Inv (s : State) : Prop where
  frame : s.FrameInv
  mode : s.ModeInv
  txn : s.TxnInv
  wire : s.WireInv
  /-- Time is monotonic (R36). -/
  time : s.waitT0 ≤ s.now
  /-- `T_READY_PULSE > 0` (R8). -/
  pulse : 0 < s.cfg.tReadyPulse

/-! ## Runs -/

/-- The run in which the events of `l` come one after another, each the next step's only one. -/
def afterEvents : List Event → State → Result
  | [], s => .next s
  | e :: rest, s =>
    match step { s with inputs := [e] } with
    | .next t => afterEvents rest t
    | .fault f => .fault f
    | .refused r => .refused r

/-- An event that is no request: the environment and the block's own agents, with a consumer that keeps the callback
contract (R131). -/
def quiet : Event → Bool
  | .device _ _ | .time _ | .engine | .handler none => true
  | .handler (some _) | .caller _ | .readSnapshot => false

/-- The longest bound that a poll may have to wait for. -/
def Config.longest (c : Config.Params) : Time := max c.tTimeout (max c.tRts c.tReadyPulse)

/-- How often a list of events lets the longest bound pass, in one time step or in many, and then takes an engine step.
`waited` is the time that has passed since the last such engine step (R106). -/
def fairRounds (c : Config.Params) (waited : Time) : List Event → Nat
  | [] => 0
  | .time d :: rest => fairRounds c (waited + d) rest
  | .engine :: rest => if Config.longest c ≤ waited then fairRounds c 0 rest + 1 else fairRounds c waited rest
  | _ :: rest => fairRounds c waited rest

/-- The time that a list of events lets pass. -/
def elapsed : List Event → Time
  | [] => 0
  | .time d :: rest => d + elapsed rest
  | _ :: rest => elapsed rest

/-- The first `n` events of an unending schedule. -/
def firstEvents (schedule : Nat → Event) (n : Nat) : List Event := (List.range n).map schedule

/-- The weak fairness that R106 asks for, of an unending schedule: the engine's step, which is enabled at every poll, is taken
again and again, and time passes every bound. How long either takes is open (log 23). -/
structure WeaklyFair (schedule : Nat → Event) : Prop where
  polls : ∀ n, ∃ m, n ≤ m ∧ schedule m = .engine
  time : ∀ d, ∃ n, d ≤ elapsed (firstEvents schedule n)

/-- The weak fairness that R121 asks for, of the run of an unending schedule from `s`: the handler's step does not stay enabled
for ever without being taken (log 23). -/
def HandlerFair (s : State) (schedule : Nat → Event) : Prop :=
  ∀ n, ∃ m, n ≤ m ∧ ((∃ consumer, schedule m = .handler consumer) ∨
    ∀ t, afterEvents (firstEvents schedule m) s = .next t → t.handlerEnabled = false)

/-- How many engine steps that leave a position a synchronous read has (R163): each of 11 bits five, the pulse four. -/
def readLength : Nat := 11 * 5 + 4

/-- And a write (R157): five of the request-to-send, ten bits of five, the line control, the acknowledgement, the check. -/
def writeLength : Nat := 5 + 10 * 5 + 5 + readLength + 1

/-- And a transaction after `CT_BEGIN` (R165), the last being `CT_END`. -/
def txnLength (it : Item) : Nat := (1 + sendCount it.desc) * writeLength + recvCount it.desc * readLength + 1

/-- And an operation after its first `CT_BEGIN`, with the two steps between two transactions (R173). -/
def operationLength : List Item → Nat
  | [] => 0
  | [it] => txnLength it
  | it :: rest => txnLength it + 2 + operationLength rest

/-- How many operations have been admitted and have not returned. -/
def State.outstanding (s : State) : Nat :=
  (if s.inTxn || !s.op.todo.isEmpty then 1 else 0) + s.suspended.length

/-! ## Line levels that are no draw -/

/-- The level of the line is no draw: an end pulls it low, or something pulls it up (R108). -/
def State.defined (l : Line) (s : State) : Prop := s.pad l ≠ .inFloat ∨ s.devLow l = true ∨ s.cfg.extPullup = true

/-! ## Frames as lists of bits (R73) -/

/-- The eleven bits of the frame of `b`, in time order (R73, R77). -/
def frameBits (b : Byte) : List Level := (List.range 11).map (frameBit b)

/-- The byte that eleven received bits assemble, whatever they are: positions 1..8, LSB first (R125, R159). -/
def byteOfBits (bits : List Level) : Byte :=
  (List.range 8).foldl (fun b k => putBit b k (bits.getD (k + 1) false)) 0#8

/-- The reports that eleven received bits give, in order: start, parity, stop (R241-R243). -/
def frameReports (c : DiagContext) (bits : List Level) : List DiagEvent :=
  (if startOk (bits.getD 0 false) then [] else [{ error := .startBitError, context := c, info := .bit true }]) ++
  (if parityOk (byteParity (byteOfBits bits) ^^ bits.getD 9 false) then []
    else [{ error := .parityError, context := c, info := .byte (byteOfBits bits) }]) ++
  (if stopOk (bits.getD 10 false) then []
    else [{ error := .stopBitError, context := c, info := .byte (byteOfBits bits) }])

/-! ## A cooperating device (spec/95_test_vectors.md, conventions) -/

/-- One bit driven by the device: the wait for low is entered, the device pulls `CLK` low and the poll sees it, the device
puts the bit on `DATA` and it is sampled, the wait for high is entered, the device lets `CLK` go and the poll sees it. -/
def deviceBit (v : Level) : List Event :=
  [.engine, .device .clk true, .engine, .device .data (!v), .engine, .engine, .device .clk false, .engine]

/-- One bit driven by the host, clocked by the device in the same way. -/
def hostBit : List Event :=
  [.engine, .device .clk true, .engine, .engine, .engine, .device .clk false, .engine]

/-- A synchronous read of the bits that the device sends, and the ready pulse held long enough (R163). -/
def deviceFrame (c : Config.Params) (bits : List Level) : List Event :=
  bits.flatMap deviceBit ++ [.engine, .engine, .time c.tReadyPulse, .engine, .engine]

/-- A synchronous read in which the device sends the frame of `b` (R73). -/
def deviceByte (c : Config.Params) (b : Byte) : List Event := deviceFrame c (frameBits b)

/-- A host write that the device clocks, with line-control bit 0, acknowledged with the byte `ack` (R74). -/
def acknowledgedWrite (c : Config.Params) (ack : Byte) : List Event :=
  [.engine, .engine, .time c.tRts, .engine, .engine, .engine] ++ (List.replicate 10 hostBit).flatten ++
    deviceBit false ++ deviceByte c ack ++ [.engine]

/-- A transaction after `CT_BEGIN`: one acknowledgement a write, then the responses, then `CT_END`. -/
def answeredTxn (c : Config.Params) (acks responses : List Byte) : List Event :=
  acks.flatMap (acknowledgedWrite c) ++ responses.flatMap (deviceByte c) ++ [.engine]

/-- What a cooperating device answers in one transaction. -/
structure Answer where
  /-- The acknowledgement byte of each write, in order. -/
  acks : List Byte
  /-- The response bytes, in order. -/
  responses : List Byte
deriving DecidableEq, Repr

/-- The answer has as many bytes as the descriptor asks for (R82). -/
def Answer.fits (a : Answer) (it : Item) : Prop :=
  a.acks.length = 1 + sendCount it.desc ∧ a.responses.length = recvCount it.desc

/-- One answer for each transaction of a series, each fitting it. -/
def answersFit : List Answer → List Item → Prop
  | [], [] => True
  | a :: answers, it :: items => a.fits it ∧ answersFit answers items
  | _, _ => False

/-- A whole operation after its first `CT_BEGIN`: between two transactions the engine takes the step from `IDLE` and
`CT_BEGIN` (R173, R218). -/
def answeredOperation (c : Config.Params) : List Answer → List Event
  | [] => []
  | [a] => answeredTxn c a.acks a.responses
  | a :: rest => answeredTxn c a.acks a.responses ++ [.engine, .engine] ++ answeredOperation c rest

/-- The reports of a cooperating device's wrong acknowledgements, in order (R156). -/
def nackReports (acks : List Byte) : List DiagEvent :=
  (acks.filter fun b => !ackOk b).map fun b => { error := .nackError, context := .sync, info := .byte b }

/-! ## An asynchronous frame -/

/-- One bit of a frame that the device sends outside a transaction: it puts the bit on `DATA`, pulls `CLK` low, the handler
runs, and it lets `CLK` go. -/
def asyncBit (v : Level) : List Event :=
  [.device .data (!v), .device .clk true, .handler none, .device .clk false]

/-- The eleven bits of a frame, whatever they are. -/
def asyncFrame (bits : List Level) : List Event := bits.flatMap asyncBit

end Sys2Proof.Machine
end

