-- ==== Sys2Proof/Certificates/Slice0/Obligations.lean ====
section
/-! DEFINITION. The statements for the provers, in the order of OBLIGATIONS.json: encodings, the link, the edge
interrupt and the receiver, setup, the operations, the engine's primitives, whole transactions, and the rules about
the whole machine. -/

open Sys2Proof Sys2Proof.Machine

/-! ## Encodings -/

/-- R80: the seven descriptors are decoded to their operations, their fields are the table's, and an operation's
argument follows its descriptor (the layout after the descriptor is the model's own: log 19). -/
def Obligations.ListedDescriptorsDecodeToTheirCommands : Prop :=
  decodeTableWord 16 0x00E6 = some .setscale11 ∧
  decodeTableWord 24 0x1410F3 = some (.setrate 0x14#8) ∧
  decodeTableWord 16 0x10F3 = some (.setrate 0x00#8) ∧
  decodeTableWord 16 0x00F4 = some .enable ∧
  decodeTableWord 16 0x00F5 = some .disable ∧
  decodeTableWord 16 0x02FF = some .resetBat ∧
  decodeTableWord 24 0x0310E8 = some (.setres 0x03#8) ∧
  decodeTableWord 16 0x03E9 = some .getinfo ∧
  decodeTableWord 24 0x5512AB = some (.command 0x12AB#16 [0x55#8])

/-- R70, R71: the three fields of a descriptor are its two high nibbles and its low byte, and together they are all of it. -/
def Obligations.DescriptorFieldsAreItsNibblesAndLowByte : Prop :=
  ∀ desc : Descriptor,
    sendCount desc = desc.toNat / 4096 ∧
    recvCount desc = desc.toNat / 256 % 16 ∧
    (opcodeByte desc).toNat = desc.toNat % 256 ∧
    desc.toNat = sendCount desc * 4096 + recvCount desc * 256 + (opcodeByte desc).toNat

/-- Every well-formed operation is read back from its words, in its one spelling. Only a generic command with a listed
descriptor has another spelling. And each word has one meaning: encoding what was decoded gives the words back (R80, R81,
R84, R85). The canonical spelling is the model's choice (log 21), as is the layout of the words (log 19). -/
def Obligations.DecodeOfEncodeIsTheOperation : Prop :=
  (∀ i : Instr, i.WellFormed → decode (encode i) = .ok i.canonical) ∧
  (∀ i : Instr, i.canonical = i ∨ ∃ desc args, i = .command desc args ∧ desc ∈ listedDescriptors) ∧
  (∀ (w : OpWords) (i : Instr), decode w = .ok i → encode i = w ∧ i.WellFormed ∧ i.canonical = i)

/-- R171, R81: the decoder rejects exactly the wrong argument counts, and no descriptor is illegal. -/
def Obligations.OnlyAWrongArgumentCountIsRejected : Prop :=
  ∀ (desc : Descriptor) (args : List Byte),
    (args.length = desc.toNat / 4096 ↔ ∃ i, decode (.descriptor desc args) = .ok i) ∧
    (args.length ≠ desc.toNat / 4096 ↔ decode (.descriptor desc args) = .error .argCountMismatch)

/-- R81: the generic command serializes the seven listed descriptors too: it has the effect of the mnemonic's operation.
That the two spellings are one operation is the model's reading (log 21). -/
def Obligations.GenericCommandOfAListedDescriptorIsTheMnemonic : Prop :=
  ∀ (i : Instr) (s : State), i.WellFormed → exec i.canonical s = exec i s

/-- R78, R79: `encoded(b)` is four `SETRES`, each with a two-bit argument, most significant pair first, and the four
arguments give `b` back. -/
def Obligations.EncodedByteSlicesRebuildTheByte : Prop :=
  ∀ (c : Config.Params) (b : Byte), ∃ a0 a1 a2 a3 : Byte,
    (expansion c (.encoded b)).map (fun it => (it.desc, it.args)) =
      [(0x10E8#16, [a0]), (0x10E8#16, [a1]), (0x10E8#16, [a2]), (0x10E8#16, [a3])] ∧
    a0.toNat = b.toNat / 64 ∧ a1.toNat = b.toNat / 16 % 4 ∧ a2.toNat = b.toNat / 4 % 4 ∧ a3.toNat = b.toNat % 4 ∧
    unslice a0 a1 a2 a3 = b

/-- R75, R76: the transmitted parity bit is 1 exactly when the byte has an even number of ones, and a received frame passes
exactly when its parity bit is that one. -/
def Obligations.ParityBitMakesTheOnesOdd : Prop :=
  ∀ b : Byte,
    (txParity b = true ↔ (List.range 8).countP (fun k => bitOf b k) % 2 = 0) ∧
    ∀ p : Level, parityOk (byteParity b ^^ p) = true ↔ p = txParity b

/-! ## The link -/

/-- R108: the resolved level is the wired-AND of the two ends, and a draw of its own where nobody decides it. That draws
are numbered by a counter is the model's choice (log 8). -/
def Obligations.LevelIsTheWiredAnd : Prop :=
  ∀ (n : Nat) (l : Line) (s : State),
    ((s.pad l = .driveLow ∨ s.devLow l = true) → levelAt n l s = LOW) ∧
    (s.pad l ≠ .driveLow → s.devLow l = false → (s.pad l = .inPullup ∨ s.cfg.extPullup = true) → levelAt n l s = HIGH) ∧
    (s.pad l = .inFloat → s.devLow l = false → s.cfg.extPullup = false → levelAt n l s = Config.lineDraw l n)

/-- R100, R101, R102: what the three line primitives write, and the levels after them. The counter of draws is the model's
own (log 8). -/
def Obligations.LinkPrimitivesWriteTheirPadAlone : Prop :=
  ∀ (s : State) (n : Nat),
    driveLow .clk s = { s with clkPad := .driveLow } ∧ driveLow .data s = { s with dataPad := .driveLow } ∧
    releaseHigh .clk s = { s with clkPad := .inPullup } ∧ releaseHigh .data s = { s with dataPad := .inPullup } ∧
    sampled .clk s = { s with clkPad := .inFloat, draws := s.draws + 1 } ∧
    sampled .data s = { s with dataPad := .inFloat, draws := s.draws + 1 } ∧
    (∀ l, levelAt n l (driveLow l s) = LOW) ∧
    (∀ l, levelAt n l (releaseHigh l s) = !s.devLow l) ∧
    (∀ l, s.devLow l = true → sampleLevel l s = LOW) ∧
    (∀ l, s.devLow l = false → s.cfg.extPullup = true → sampleLevel l s = HIGH) ∧
    (∀ l, s.devLow l = false → s.cfg.extPullup = false → sampleLevel l s = Config.lineDraw l s.draws)

/-- R105, R244: a clock wait, in any write or read of a transaction. `W_ENTER` sets the pad by the level and notes the time
(and a read's registers start with its first one, R158). At a poll the level is tested before the deadline: seen, the wait
returns without a report; not seen in time, `ClockTimeout` is reported and the engine goes on all the same; otherwise the
wait stays. A poll changes nothing else but the model's count of draws. The count of draws (log 8) and the step in which a
read's registers start (log 15) are the model's choices. -/
def Obligations.ClockWaitPollsTheLevelThenTheDeadline : Prop :=
  State.reset.cfg.tTimeout = 25000 ∧
  ∀ (s : State) (t : Level), s.ModeInv → s.TxnInv →
    let after : Machine.Seq := s.seq.next (sendCount s.txn.desc) (recvCount s.txn.desc)
    (s.seq.enters = some t → engineStep s = .next { s with
      clkPad := if t = LOW then .inPullup else .inFloat
      waitT0 := s.now, seq := after
      rb := if s.reading = some (.waitLow 0 .enter) then { s.rb with byte := 0x00#8, parity := false } else s.rb }) ∧
    (s.seq.awaits = some t → levelAt s.draws .clk s = t →
      engineStep s = .next { s with draws := s.draws + 1, seq := after }) ∧
    (s.seq.awaits = some t → levelAt s.draws .clk s ≠ t → s.cfg.tTimeout ≤ s.now - s.waitT0 →
      engineStep s = .next { s with
        draws := s.draws + 1, seq := after
        diagLog := s.diagLog ++ [{ error := .clockTimeout, context := .sync, info := .level t }] }) ∧
    (s.seq.awaits = some t → levelAt s.draws .clk s ≠ t → s.now - s.waitT0 < s.cfg.tTimeout →
      engineStep s = .next { s with draws := s.draws + 1 })

/-- R107: a hold notes the time at its `D_ENTER` and lasts until at least its bound has passed, and its poll changes nothing
but the position. The bounds are `T_RTS` for a request-to-send and `T_READY_PULSE` for a ready pulse (R151, R162). -/
def Obligations.HoldLastsAtLeastItsBound : Prop :=
  ∀ s : State, s.ModeInv → s.TxnInv →
    (s.seq.entersHold = true → engineStep s = .next { s with
      waitT0 := s.now, seq := s.seq.next (sendCount s.txn.desc) (recvCount s.txn.desc) }) ∧
    ∀ d : Time, s.seq.holds s.cfg = some d →
      (d ≤ s.now - s.waitT0 →
        engineStep s = .next { s with seq := s.seq.next (sendCount s.txn.desc) (recvCount s.txn.desc) }) ∧
      (s.now - s.waitT0 < d → engineStep s = .next s)

/-! ## The edge interrupt and the receiver -/

/-- R109, R120, R249: over any step that finds no edge pending, `edge_pending` rises exactly on a falling edge of the resolved
level while edges are recorded (stated where neither level is a draw, R108); an edge while the gate is closed is lost
unless edges are latched while masked, draws or not; and a pending edge is cleared by three events only: the handler's
step, a transaction's start if edges are not latched while masked, and `begin`. That the latch looks at the state after the
step is the model's reading (log 10). -/
def Obligations.FallingEdgeIsLatched : Prop :=
  ∀ s t : State, step s = .next t →
    (s.edgePending = false → s.defined .clk → t.defined .clk →
      (t.edgePending = true ↔
        ((s.clkPad ≠ .driveLow ∧ s.clkDevLow = false) ∧ (t.clkPad = .driveLow ∨ t.clkDevLow = true) ∧
          t.configured = true ∧ (t.gate = true ∨ t.cfg.edgeLatchWhileMasked = true)))) ∧
    (s.edgePending = false → s.cfg.edgeLatchWhileMasked = false → t.gate = false → t.edgePending = false) ∧
    (s.edgePending = true → t.edgePending = false →
      ((∃ c, (nextEvent s).1 = .handler c) ∧ s.gate = true ∧ s.inHandler = false) ∨
      (s.cfg.edgeLatchWhileMasked = false ∧ t.inTxn = true ∧ t.seq = .ctOpcode .rtsClk ∧
        ((∃ w, (nextEvent s).1 = .caller (.op w)) ∨ ((nextEvent s).1 = .engine ∧ s.seq = .ctBegin))) ∨
      ∃ cp dp cb, (nextEvent s).1 = .caller (.begin cp dp cb))

/-- R122: a handler step that samples `CLK` high is a spurious trigger: only the pad of `CLK` changes, and the edge is consumed.
The counter of draws is the model's own (log 8). -/
def Obligations.SpuriousTriggerChangesOnlyTheClockPad : Prop :=
  ∀ (s : State) (c : Option Request), s.handlerEnabled = true → sampleLevel .clk (enterHandler s) = HIGH →
    handlerStep c s = .next { s with edgePending := false, clkPad := .inFloat, draws := s.draws + 1 }

/-- R124, R241: the start position. A wrong start bit is reported, and the frame goes on. The counter of draws is the
model's own (log 8). -/
def Obligations.StartBitIsCheckedAndTheFrameGoesOn : Prop :=
  ∀ (s : State) (c : Option Request) (d : Level), s.handlerEnabled = true →
    sampleLevel .clk (enterHandler s) = LOW → sampleLevel .data (sampled .clk (enterHandler s)) = d →
    s.frame.bitIndex = 0#4 →
    handlerStep c s = .next { s with
      edgePending := false, clkPad := .inFloat, dataPad := .inFloat, draws := s.draws + 2
      frame := { s.frame with bitIndex := 1#4 }
      diagLog := s.diagLog ++ if d = LOW then [] else [{ error := .startBitError, context := .async, info := .bit d }] }

/-- R125: a payload position. The bit goes to bit position `bit_index - 1` and into the running parity. The counter of
draws is the model's own (log 8). -/
def Obligations.PayloadBitIsAccumulatedLsbFirst : Prop :=
  ∀ (s : State) (c : Option Request) (d : Level), s.handlerEnabled = true →
    sampleLevel .clk (enterHandler s) = LOW → sampleLevel .data (sampled .clk (enterHandler s)) = d →
    1 ≤ s.frame.bitIndex.toNat → s.frame.bitIndex.toNat ≤ 8 →
    ∃ acc : Byte,
      handlerStep c s = .next { s with
        edgePending := false, clkPad := .inFloat, dataPad := .inFloat, draws := s.draws + 2
        frame := { bitIndex := s.frame.bitIndex + 1#4, accumulatedByte := acc, runningParity := s.frame.runningParity ^^ d } } ∧
      ∀ k < 8, bitOf acc k =
        if k = s.frame.bitIndex.toNat - 1 then (bitOf s.frame.accumulatedByte k || d) else bitOf s.frame.accumulatedByte k

/-- R126, R242: the parity position. The parity bit joins the running parity, and an even count of ones is reported. The
counter of draws is the model's own (log 8). -/
def Obligations.ParityBitIsCheckedAndTheFrameGoesOn : Prop :=
  ∀ (s : State) (c : Option Request) (d : Level), s.handlerEnabled = true →
    sampleLevel .clk (enterHandler s) = LOW → sampleLevel .data (sampled .clk (enterHandler s)) = d →
    s.frame.bitIndex = 9#4 →
    handlerStep c s = .next { s with
      edgePending := false, clkPad := .inFloat, dataPad := .inFloat, draws := s.draws + 2
      frame := { s.frame with bitIndex := 10#4, runningParity := s.frame.runningParity ^^ d }
      diagLog := s.diagLog ++
        if (s.frame.runningParity ^^ d) = true then []
        else [{ error := .parityError, context := .async, info := .byte s.frame.accumulatedByte }] }

/-- R127, R243: the stop position. A wrong stop bit is reported; the byte is delivered in either case, and the frame state
is idle. The counter of draws is the model's own (log 8). -/
def Obligations.StopBitDeliversTheByteAnyway : Prop :=
  ∀ (s : State) (d : Level), s.handlerEnabled = true →
    sampleLevel .clk (enterHandler s) = LOW → sampleLevel .data (sampled .clk (enterHandler s)) = d →
    s.frame.bitIndex = 10#4 →
    handlerStep none s = .next { s with
      edgePending := false, clkPad := .inFloat, dataPad := .inFloat, draws := s.draws + 2
      frame := { bitIndex := 0#4, accumulatedByte := 0x00#8, runningParity := false }
      rxStream := s.rxStream ++ [s.frame.accumulatedByte]
      diagLog := s.diagLog ++
        if d = HIGH then [] else [{ error := .stopBitError, context := .async, info := .byte s.frame.accumulatedByte }] }

/-- R134: a `bit_index` in 11..15 is the fault `BitIndexOutOfRange`. -/
def Obligations.OutOfRangeBitIndexFaults : Prop :=
  ∀ (s : State) (c : Option Request), s.handlerEnabled = true → sampleLevel .clk (enterHandler s) = LOW →
    11 ≤ s.frame.bitIndex.toNat → handlerStep c s = .fault .bitIndexOutOfRange

/-- R131, R248: an operation requested while `in_handler = 1`, and one that the consumer requests from inside the delivery,
is the fault `ReentrantTransaction`, whatever the request is. That the fault comes first where another stop of R248 applies too
is the model's choice (log 14); that the handler's event carries the consumer's request is
the model's form (log 18). -/
def Obligations.OperationFromTheCallbackFaults : Prop :=
  (∀ (s : State) (r : Request), s.inHandler = true → requestStep r s = .fault .reentrantTransaction) ∧
  (∀ (s : State) (i : Instr), s.inHandler = true → exec i s = .fault .reentrantTransaction) ∧
  ∀ (s : State) (r : Request), s.handlerEnabled = true → sampleLevel .clk (enterHandler s) = LOW →
    s.frame.bitIndex = 10#4 → handlerStep (some r) s = .fault .reentrantTransaction

/-- R252, R253: taking the edge interrupt saves nothing and returning restores `in_handler`: the handler step leaves the
caller's position, every transaction, write and read register, the gate, the Synaptics store and time untouched. -/
def Obligations.HandlerStepLeavesTheCallerUntouched : Prop :=
  ∀ (s t : State) (c : Option Request), handlerStep c s = .next t → s.inHandler = false →
    t.seq = s.seq ∧ t.txn = s.txn ∧ t.wb = s.wb ∧ t.rb = s.rb ∧ t.op = s.op ∧ t.suspended = s.suspended ∧
    t.gate = s.gate ∧ t.inTxn = s.inTxn ∧
    t.inHandler = false ∧ t.syn = s.syn ∧ t.link = s.link ∧ t.configured = s.configured ∧ t.now = s.now ∧
    t.waitT0 = s.waitT0 ∧ t.resultStream = s.resultStream ∧ t.clkDevLow = s.clkDevLow ∧ t.dataDevLow = s.dataDevLow ∧
    ∃ reports, t.diagLog = s.diagLog ++ reports ∧ reports.length ≤ 1

/-- R121, R62, R251: the handler step is taken only with an edge pending and the gate open; otherwise nothing happens (the
stutter is the model's choice: log 9). In a transaction it is never taken. And it is taken at last: with an edge pending
and the gate open, whatever comes first in a schedule that is weakly fair to the handler, its step comes while it is still
enabled, unless a transaction begins before. Fairness is a premise, in the form of log 23. -/
def Obligations.ClosedGateKeepsTheHandlerOut : Prop :=
  (∀ (s : State) (c : Option Request),
    ((s.edgePending = false ∨ s.gate = false ∨ s.inHandler = true) → handlerStep c s = .next s) ∧
    (s.ModeInv → s.inTxn = true → handlerStep c s = .next s)) ∧
  ∀ (s : State) (schedule : Nat → Event), s.ModeInv → HandlerFair s schedule → (∀ n, quiet (schedule n) = true) →
    s.handlerEnabled = true →
    ∃ n t, afterEvents (firstEvents schedule n) s = .next t ∧
      (t.inTxn = true ∨ (t.handlerEnabled = true ∧ schedule n = .handler none))

/-- R133, R241, R242, R243, R287: eleven consumed bits, whatever they are, give exactly one delivered byte, exactly the
reports of the failed checks in order, and an idle frame state. -/
def Obligations.ElevenBitsDeliverOneByteWithTheirReports : Prop :=
  ∀ (s : State) (bits : List Level), bits.length = 11 → s.frame = Frame.idle → s.configured = true → s.gate = true →
    s.inHandler = false → s.cfg.extPullup = true → s.clkPad ≠ .driveLow → s.clkDevLow = false →
    ∃ t, afterEvents (asyncFrame bits) s = .next t ∧
      t.rxStream = s.rxStream ++ [byteOfBits bits] ∧
      t.diagLog = s.diagLog ++ frameReports .async bits ∧
      t.frame = Frame.idle ∧ t.seq = s.seq ∧ t.gate = true ∧ t.clkPad = .inFloat ∧ t.dataPad = .inFloat ∧
      t.edgePending = false

/-- R242: the frame of a byte assembles to that byte and fails no check; and flipping one data bit of it without adjusting
its parity bit assembles another byte and fails the parity check alone. -/
def Obligations.FlippedDataBitIsAParityErrorAlone : Prop :=
  ∀ (b : Byte) (c : DiagContext),
    (frameBits b).length = 11 ∧ byteOfBits (frameBits b) = b ∧ frameReports c (frameBits b) = [] ∧
    ∀ k, 1 ≤ k → k ≤ 8 →
      let bits := (frameBits b).set k (!frameBit b k)
      byteOfBits bits ≠ b ∧
      frameReports c bits = [{ error := .parityError, context := c, info := .byte (byteOfBits bits) }]

/-- R132: every step, whatever it is, keeps the receive frame's invariants. -/
def Obligations.EveryStepKeepsTheFrameInvariant : Prop :=
  ∀ s t : State, s.FrameInv → step s = .next t → t.FrameInv

/-- R39, R136, R164: only the receive handler's stop position appends to `rx_stream`, and it appends the assembled byte. -/
def Obligations.OnlyTheHandlerAppendsToTheByteStream : Prop :=
  ∀ s t : State, step s = .next t →
    t.rxStream = s.rxStream ∨
    (t.rxStream = s.rxStream ++ [s.frame.accumulatedByte] ∧ s.frame.bitIndex = 10#4 ∧ s.edgePending = true ∧
      s.gate = true ∧ (nextEvent s).1 = .handler none)

/-! ## Setup -/

/-- R280, R282, R42: `begin` where its preconditions hold: what it writes, and that it writes nothing else. That a `begin`
between two transactions of a composite is admitted, and leaves the waiting series as it is, is the model's reading of R280
(log 13). -/
def Obligations.BeginSetsTheBlockUp : Prop :=
  ∀ (s : State) (cp dp : PinId) (cb : CallbackId), s.inHandler = false → s.inTxn = false → cp ≠ dp →
    requestStep (.begin cp dp cb) s = .next { s with
      link := { clockPin := cp, dataPin := dp, callback := cb }
      clkPad := .inPullup, dataPad := .inPullup
      frame := { bitIndex := 0#4, accumulatedByte := 0x00#8, runningParity := false }
      edgePending := false, gate := true, configured := true, seq := .idle }

/-- R280: each failed precondition of `begin` alone. -/
def Obligations.BeginIsRefusedOutOfPlace : Prop :=
  ∀ (s : State) (cp dp : PinId) (cb : CallbackId),
    (s.inTxn = true → s.inHandler = false → cp ≠ dp → requestStep (.begin cp dp cb) s = .refused .beginDuringTransaction) ∧
    (s.inTxn = false → s.inHandler = false → cp = dp → requestStep (.begin cp dp cb) s = .refused .samePin) ∧
    (s.inTxn = false → s.inHandler = true → cp ≠ dp → requestStep (.begin cp dp cb) s = .fault .reentrantTransaction)

/-- R281: before the first `begin` every operation of the table is refused, and no step of the environment or of the block's
agents latches an edge or configures the block. -/
def Obligations.BeforeBeginOperationsAreRefusedAndEdgesLost : Prop :=
  (∀ (s : State) (i : Instr), s.BeforeBegin → i.WellFormed → exec i s = .refused .notConfigured) ∧
  ∀ s t : State, s.BeforeBegin → step s = .next t →
    (t.BeforeBegin ∨ ∃ cp dp cb, (nextEvent s).1 = .caller (.begin cp dp cb) ∧ t.configured = true)

/-- R42: the reset state is a state after `begin`. The pins and the callback are the model's choice (log 2), as are the state
before it and the transient registers (logs 1, 3, 4). -/
def Obligations.ResetIsTheStateAfterBegin : Prop :=
  (∃ s : State, s.BeforeBegin ∧ requestStep (.begin .first .second 0) s = .next State.reset) ∧
  State.reset.cfg.tTimeout = 25000 ∧ State.reset.cfg.tRts = 100 ∧ 0 < State.reset.cfg.tReadyPulse ∧
  State.reset.configured = true ∧ State.reset.frame.bitIndex = 0#4 ∧ State.reset.frame.accumulatedByte = 0x00#8 ∧
  State.reset.frame.runningParity = false ∧ State.reset.gate = true ∧ State.reset.edgePending = false ∧
  State.reset.clkPad = .inPullup ∧ State.reset.dataPad = .inPullup ∧ State.reset.inTxn = false ∧
  State.reset.inHandler = false ∧ State.reset.seq = .idle ∧ State.reset.syn.snapshot = none ∧
  State.reset.rxStream = [] ∧ State.reset.diagLog = []

/-! ## The operations of the table -/

/-- R166, R190, R192, R193, R194, R196: each command without an argument, admitted, begins its transaction: the gate closes,
the frame state is forced to idle, the descriptor is latched with no argument, and nothing else changes. That the
request's own step is `CT_BEGIN` is the model's reading (log 11).
A composite between two of its transactions is put aside meanwhile, as the model reads R171 (log 13). -/
def Obligations.CommandsWithoutArgumentBegin : Prop :=
  ∀ (s : State) (i : Instr) (desc : Descriptor), s.Ready →
    (i, desc) ∈ [(Instr.setscale11, 0x00E6#16), (.enable, 0x00F4#16), (.disable, 0x00F5#16), (.resetBat, 0x02FF#16),
      (.getinfo, 0x03E9#16)] →
    exec i s = .next { s with
      gate := false
      edgePending := s.edgePending && s.cfg.edgeLatchWhileMasked
      frame := { bitIndex := 0#4, accumulatedByte := 0x00#8, runningParity := false }
      inTxn := true
      txn := { desc := desc, args := [], results := [], ok := true }
      op := { todo := [], ok := true, post := .nothing }
      suspended := if s.op.todo = [] then s.suspended else s.op :: s.suspended
      seq := .ctOpcode .rtsClk }

/-- R166, R191, R195: `SETRATE(r)` and `SETRES(a)`, admitted, begin theirs with the argument latched unchanged. That the
request's own step is `CT_BEGIN` is the model's reading (log 11).
A composite between two of its transactions is put aside meanwhile, as the model reads R171 (log 13). -/
def Obligations.CommandsWithOneArgumentBegin : Prop :=
  ∀ (s : State) (x : Byte) (i : Instr) (desc : Descriptor), s.Ready →
    (i, desc) ∈ [(Instr.setrate x, 0x10F3#16), (.setres x, 0x10E8#16)] →
    exec i s = .next { s with
      gate := false
      edgePending := s.edgePending && s.cfg.edgeLatchWhileMasked
      frame := { bitIndex := 0#4, accumulatedByte := 0x00#8, runningParity := false }
      inTxn := true
      txn := { desc := desc, args := [x], results := [], ok := true }
      op := { todo := [], ok := true, post := .nothing }
      suspended := if s.op.todo = [] then s.suspended else s.op :: s.suspended
      seq := .ctOpcode .rtsClk }

/-- R165, R166, R171, R81: the generic command, admitted, begins a transaction with any descriptor and exactly `desc[15:12]`
arguments, and is refused with any other number. That the request's own step is `CT_BEGIN` is the model's reading (log
11).
A composite between two of its transactions is put aside meanwhile, as the model reads R171 (log 13). -/
def Obligations.GenericCommandBeginsWithItsArgumentCount : Prop :=
  ∀ (s : State) (desc : Descriptor) (args : List Byte), s.Ready →
    (args.length = desc.toNat / 4096 →
      exec (.command desc args) s = .next { s with
        gate := false
        edgePending := s.edgePending && s.cfg.edgeLatchWhileMasked
        frame := { bitIndex := 0#4, accumulatedByte := 0x00#8, runningParity := false }
        inTxn := true
        txn := { desc := desc, args := args, results := [], ok := true }
        op := { todo := [], ok := true, post := .nothing }
        suspended := if s.op.todo = [] then s.suspended else s.op :: s.suspended
        seq := .ctOpcode .rtsClk }) ∧
    (args.length ≠ desc.toNat / 4096 → exec (.command desc args) s = .refused .argCountMismatch)

/-- R210, R212, R213, R214, R215: each composite, admitted, begins its first transaction, and the rest of its series waits,
exactly as its rule lists it. That the request's own step is `CT_BEGIN` (log 11) and how the rest waits (log 12) are the
model's readings.
A composite between two of its transactions is put aside meanwhile, as the model reads R171 (log 13). -/
def Obligations.CompositesBeginTheirSeries : Prop :=
  ∀ (s : State) (b m r : Byte), s.Ready →
    let setres (x : Byte) : Item := { desc := 0x10E8#16, args := [x], post := .nothing }
    let plain (d : Descriptor) : Item := { desc := d, args := [], post := .nothing }
    let setrate (x : Byte) : Item := { desc := 0x10F3#16, args := [x], post := .nothing }
    let enc (x : Byte) : List Item := [setres ((x >>> 6) &&& 3), setres ((x >>> 4) &&& 3), setres ((x >>> 2) &&& 3), setres (x &&& 3)]
    let getinfo (p : Post) : Item := { desc := 0x03E9#16, args := [], post := p }
    let script (p : Post) : List Item :=
      [plain 0x00E6#16, plain 0x00E6#16, setres 0x03#8, setres 0x00#8, setres 0x01#8, setres 0x01#8, setrate 0x14#8,
       plain 0x00E6#16, plain 0x00E6#16, setres 0x00#8, setres 0x00#8, setres 0x00#8, setres 0x03#8, setrate 0xC8#8,
       { desc := 0x00F4#16, args := [], post := p }]
    let begun (first : Item) (rest : List Item) : State := { s with
      gate := false
      edgePending := s.edgePending && s.cfg.edgeLatchWhileMasked
      frame := { bitIndex := 0#4, accumulatedByte := 0x00#8, runningParity := false }
      inTxn := true
      txn := { desc := first.desc, args := first.args, results := [], ok := true }
      op := { todo := rest, ok := true, post := .nothing }
      suspended := if s.op.todo = [] then s.suspended else s.op :: s.suspended
      seq := .ctOpcode .rtsClk }
    exec (.encoded b) s = .next (begun (setres ((b >>> 6) &&& 3)) (enc b).tail) ∧
    exec (.query b) s = .next (begun (setres ((b >>> 6) &&& 3)) ((enc b).tail ++ [getinfo .nothing])) ∧
    exec (.setMode m r) s = .next (begun (plain 0x00E6#16) ([plain 0x00E6#16] ++ enc m ++ [setrate r])) ∧
    exec .modeProgram s = .next (begun (plain 0x00F5#16) (script .nothing)) ∧
    exec .synInit s = .next (begun (setres ((s.cfg.qVersion >>> 6) &&& 3))
      ((enc s.cfg.qVersion).tail ++ [getinfo (.keep .version)] ++
        enc s.cfg.qExtCaps ++ [getinfo (.keep .extCaps)] ++
        enc s.cfg.qResolution ++ [getinfo (.keep .resolution)] ++
        enc s.cfg.qClickpad ++ [getinfo (.keepAndParse .clickpad)] ++
        plain 0x00F5#16 :: script .initDone))

/-- R171, R172, R248: each condition of the admission alone refuses every operation: not configured, and a transaction in
progress; where they hold, words with a wrong argument count are refused, and a request for `write_byte`,
`read_byte_sync` or a link primitive is refused anywhere. Between two transactions of a composite, where R171 names no
stop, an operation is admitted; that it runs before the rest of the composite is the model's reading (log 13). -/
def Obligations.OperationsOutOfPlaceAreRefused : Prop :=
  (∀ (s : State) (i : Instr), i.WellFormed → s.inHandler = false →
    (s.configured = false → s.inTxn = false → exec i s = .refused .notConfigured) ∧
    (s.configured = true → s.inTxn = true → exec i s = .refused .transactionBusy) ∧
    (s.configured = true → s.inTxn = false → s.op.todo ≠ [] →
      ∃ t, exec i s = .next t ∧ t.inTxn = true ∧ t.suspended = s.op :: s.suspended)) ∧
  (∀ (s : State) (desc : Descriptor) (args : List Byte), s.Ready → args.length ≠ desc.toNat / 4096 →
    requestStep (.op (.descriptor desc args)) s = .refused .argCountMismatch) ∧
  ∀ s : State, s.inHandler = false →
    (∀ b, requestStep (.writeByte b) s = .refused .notAnOperation) ∧
    requestStep .readByteSync s = .refused .notAnOperation ∧
    ∀ p, requestStep (.link p) s = .refused .notAnOperation

/-- R63, R67: when the next event is the request of words that decode to an operation, it is well formed, and the step is that
operation's meaning at the state, followed by the edge detector's look; and `withFetchWord` brings exactly that about.
That the events come from a list, and that a program is the caller's requests in it, are the model's choices (logs 7, 20). -/
def Obligations.StepRunsTheDecodedOperation : Prop :=
  (∀ (s : State) (w : OpWords) (rest : List Event) (i : Instr), s.inputs = .caller (.op w) :: rest → decode w = .ok i →
    i.WellFormed ∧ step s = observed { s with inputs := rest } (exec i { s with inputs := rest })) ∧
  ∀ (s : State) (nbits w : Nat) (i : Instr), decodeTableWord nbits w = some i →
    step (s.withFetchWord nbits w) = observed s (exec i s)

/-! ## The engine's primitives -/

/-- R150, R151: the request-to-send of any write, of the opcode or of an argument: clock low, held for `T_RTS` = 100 µs, then
data low, then the clock released. The write's registers start in the first of these steps. That they start there is the
model's reading (log 15). -/
def Obligations.RequestToSendHoldsTheClockThenLowersData : Prop :=
  State.reset.cfg.tRts = 100 ∧
  ∀ (s : State) (b : Byte),
    let after : Machine.Seq := s.seq.next (sendCount s.txn.desc) (recvCount s.txn.desc)
    (s.writing = some (b, .rtsClk) → engineStep s = .next { s with
      clkPad := .driveLow, wb := { s.wb with byte := b, parity := true }, seq := after }) ∧
    (s.writing = some (b, .rtsHold .enter) → engineStep s = .next { s with waitT0 := s.now, seq := after }) ∧
    (s.writing = some (b, .rtsHold .poll) → s.now - s.waitT0 < s.cfg.tRts → engineStep s = .next s) ∧
    (s.writing = some (b, .rtsHold .poll) → s.cfg.tRts ≤ s.now - s.waitT0 → engineStep s = .next { s with seq := after }) ∧
    (s.writing = some (b, .rtsData) → engineStep s = .next { s with dataPad := .driveLow, seq := after }) ∧
    (s.writing = some (b, .rtsRel) → engineStep s = .next { s with clkPad := .inPullup, seq := after })

/-- R152, R153, R154: at the `i`-th drive of a write of `b`, the host puts frame position `i + 1` of `b` on `DATA`, and the
parity register takes in a data bit. -/
def Obligations.DriveShowsTheFrameBit : Prop :=
  ∀ (s : State) (i : Fin 10) (b : Byte), s.writing = some (b, .bitDrive i) → s.WireInv →
    ∃ t, engineStep s = .next t ∧
      t = { s with
        dataPad := if frameBit b (i.val + 1) = HIGH then .inPullup else .driveLow
        wb := { s.wb with parity := s.wb.parity ^^ (decide (i.val < 8) && bitOf b i.val) }
        seq := s.seq.next (sendCount s.txn.desc) (recvCount s.txn.desc) }

/-- R155, R245: the line-control bit is sampled and a 1 is reported, and nothing else comes of it. The counter of draws is
the model's own (log 8). -/
def Obligations.LineControlErrorIsOnlyReported : Prop :=
  ∀ (s : State) (b : Byte), s.writing = some (b, .lcSample) →
    engineStep s = .next { s with
      dataPad := .inFloat, draws := s.draws + 1, wb := { s.wb with lc := sampleLevel .data s }
      seq := s.seq.next (sendCount s.txn.desc) (recvCount s.txn.desc)
      diagLog := s.diagLog ++ if sampleLevel .data s = LOW then []
        else [{ error := .lineControlError, context := .sync, info := .bit (sampleLevel .data s) }] }

/-- R156, R246: the check of the acknowledgement: only a byte other than `0xFA` is reported, and it alone makes `ok` 0.
That `ok` takes the result in, in this step, is the model's reading (log 15). -/
def Obligations.OnlyAWrongAcknowledgementFailsTheWrite : Prop :=
  ∀ (s : State) (b : Byte), s.writing = some (b, .check) →
    engineStep s = .next { s with
      txn := { s.txn with ok := s.txn.ok && decide (s.wb.ack = 0xFA#8) }
      seq := s.seq.next (sendCount s.txn.desc) (recvCount s.txn.desc)
      diagLog := s.diagLog ++ if s.wb.ack = 0xFA#8 then []
        else [{ error := .nackError, context := .sync, info := .byte s.wb.ack }] }

/-- R162: the ready pulse of any read, of an acknowledgement or of a response: clock low, held, released. As the procedure
returns, a response is stored in arrival order (R168) and an acknowledgement in `wb_ack` (R156). That this is the step in
which the byte is stored is the model's reading (log 15). -/
def Obligations.ReadyPulseEndsARead : Prop :=
  ∀ s : State, s.ModeInv → s.TxnInv →
    let after : Machine.Seq := s.seq.next (sendCount s.txn.desc) (recvCount s.txn.desc)
    (s.reading = some .pulseLow → engineStep s = .next { s with clkPad := .driveLow, seq := after }) ∧
    (s.reading = some (.pulseHold .enter) → engineStep s = .next { s with waitT0 := s.now, seq := after }) ∧
    (s.reading = some (.pulseHold .poll) → s.now - s.waitT0 < s.cfg.tReadyPulse → engineStep s = .next s) ∧
    (s.reading = some (.pulseHold .poll) → s.cfg.tReadyPulse ≤ s.now - s.waitT0 →
      engineStep s = .next { s with seq := after }) ∧
    (s.reading = some .pulseRel → engineStep s = .next { s with
      clkPad := .inPullup, seq := after
      txn := if s.writing.isSome then s.txn else { s.txn with results := s.txn.results ++ [s.rb.byte] }
      wb := if s.writing.isSome then { s.wb with ack := s.rb.byte } else s.wb })

/-- R158, R159, R160, R161: the sample at each of the eleven positions of a read, of an acknowledgement or of a response: what it
adds to the byte and to the parity, and which check is reported. The counter of draws is the model's own (log 8). -/
def Obligations.ReadSampleTakesTheBitAndItsCheck : Prop :=
  ∀ (s : State) (k : Fin 11) (d : Level), s.ModeInv → s.TxnInv → s.reading = some (.sample k) → sampleLevel .data s = d →
    engineStep s = .next { s with
      dataPad := .inFloat, draws := s.draws + 1
      seq := s.seq.next (sendCount s.txn.desc) (recvCount s.txn.desc)
      rb := { bit := d
              byte := if 1 ≤ k.val ∧ k.val ≤ 8 ∧ d = HIGH then s.rb.byte ||| (1#8 <<< (k.val - 1)) else s.rb.byte
              parity := if 1 ≤ k.val ∧ k.val ≤ 9 then s.rb.parity ^^ d else s.rb.parity }
      diagLog := s.diagLog ++
        if k.val = 0 ∧ d = HIGH then [{ error := .startBitError, context := .sync, info := .bit d }]
        else if k.val = 9 ∧ (s.rb.parity ^^ d) = false then
          [{ error := .parityError, context := .sync, info := .byte s.rb.byte }]
        else if k.val = 10 ∧ d = LOW then [{ error := .stopBitError, context := .sync, info := .byte s.rb.byte }]
        else [] }

/-- R169, R215: `CT_END` of any transaction: the gate opens, `ok` is ANDed into the operation's, and what is to be kept of it
goes to the Synaptics store: nothing, a raw response, the last response with the parsed snapshot, or that the initialization has
completed (R38; logs 17, 25). If nothing is left to do, the operation's result is returned (log 16), and a composite that
was put aside goes on (log 13): these four are the model's forms. -/
def Obligations.TransactionEndOpensTheGate : Prop :=
  ∀ (s : State), s.seq = .ctEnd → s.ModeInv → s.TxnInv →
    let ended : Operation := { todo := s.op.todo, ok := s.op.ok && s.txn.ok, post := .nothing }
    ∃ syn : SynState,
      engineStep s = .next { s with
        inTxn := false, gate := true, seq := .idle, syn := syn
        op := if s.op.todo = [] then s.suspended.headD ended else ended
        suspended := if s.op.todo = [] then s.suspended.tail else s.suspended
        resultStream := s.resultStream ++
          if s.op.todo = [] then [{ ok := s.op.ok && s.txn.ok, bytes := s.txn.results }] else [] } ∧
      (s.op.post = .nothing → syn = s.syn) ∧
      (s.op.post = .initDone → syn = { s.syn with initDone := true }) ∧
      (∀ q, s.op.post = .keep q ∨ s.op.post = .keepAndParse q → s.txn.results.length = 3) ∧
      ∀ r0 r1 r2 : Byte, s.txn.results = [r0, r1, r2] →
        (s.op.post = .keep .version → syn = { s.syn with version := some ⟨r0, r1, r2⟩ }) ∧
        (s.op.post = .keep .extCaps → syn = { s.syn with extCaps := some ⟨r0, r1, r2⟩ }) ∧
        (s.op.post = .keep .resolution → syn = { s.syn with resolution := some ⟨r0, r1, r2⟩ }) ∧
        (s.op.post = .keepAndParse .clickpad → ∃ v e r : Response,
          s.syn.version = some v ∧ s.syn.extCaps = some e ∧ s.syn.resolution = some r ∧
          syn = { s.syn with clickpad := some ⟨r0, r1, r2⟩, snapshot := some (parseSnapshot v e r ⟨r0, r1, r2⟩) })

/-- R173, R218: between two transactions of a composite `seq = IDLE` with the gate open and `in_txn = 0`; the next engine
steps go to `CT_BEGIN` and begin the next transaction of the series. That these are two engine steps is the model's reading
(log 12). An engine step at `IDLE` with nothing to do changes nothing (log 9). -/
def Obligations.CompositeGoesOnAfterAnIdleStep : Prop :=
  (∀ (s : State) (it : Item) (rest : List Item), s.op.todo = it :: rest →
    (∀ t, s.seq = .ctEnd → engineStep s = .next t →
      t.seq = .idle ∧ t.gate = true ∧ t.inTxn = false ∧ t.op.todo = it :: rest ∧ t.suspended = s.suspended) ∧
    (s.seq = .idle → engineStep s = .next { s with seq := .ctBegin }) ∧
    (s.seq = .ctBegin → engineStep s = .next { s with
      gate := false
      edgePending := s.edgePending && s.cfg.edgeLatchWhileMasked
      frame := { bitIndex := 0#4, accumulatedByte := 0x00#8, runningParity := false }
      inTxn := true
      txn := { desc := it.desc, args := it.args, results := [], ok := true }
      op := { todo := rest, ok := s.op.ok, post := it.post }
      seq := .ctOpcode .rtsClk })) ∧
  ∀ s : State, s.seq = .idle → s.op.todo = [] → engineStep s = .next s

/-- R38, R248: a read of the snapshot faults before the Synaptics initialization has completed, and after it changes nothing.
That the completion is a bit of state is the model's reading (log 17). -/
def Obligations.SnapshotReadNeedsTheInitialization : Prop :=
  ∀ s : State,
    (s.syn.initDone = false → applyEvent .readSnapshot s = .fault .noValue) ∧
    (s.TxnInv → s.syn.initDone = true → s.syn.snapshot.isSome = true ∧ applyEvent .readSnapshot s = .next s)

/-! ## Whole transactions -/

/-- R83: a transaction performs `44 * (1 + n_send) + 22 * n_recv` clock waits on the way from `CT_OPCODE` to `IDLE`, and it is a
transaction all that way. -/
def Obligations.TransactionHasAFixedNumberOfWaits : Prop :=
  ∀ nSend nRecv : Nat,
    let n := (1 + nSend) * writeLength + nRecv * readLength + 1
    (Machine.Seq.walk nSend nRecv n (.ctOpcode .rtsClk)).countP (fun q => q.enters.isSome) =
      44 * (1 + nSend) + 22 * nRecv ∧
    (∀ q ∈ Machine.Seq.walk nSend nRecv n (.ctOpcode .rtsClk), q.inTransaction = true) ∧
    (Machine.Seq.walk nSend nRecv (n + 1) (.ctOpcode .rtsClk)).getLast? = some .idle

/-- R157, R163, R165, R173: program order. The positions that follow one another from `CT_OPCODE` on are those of the opcode write,
of one write for each argument, of one read for each response, and `CT_END`, each write and each read whole. -/
def Obligations.TransactionWritesThenReadsInOrder : Prop :=
  ∀ nSend nRecv : Nat,
    Machine.Seq.walk nSend nRecv ((1 + nSend) * writeLength + nRecv * readLength + 1) (.ctOpcode .rtsClk) =
      Machine.Seq.path nSend nRecv

/-- R158-R163, R241-R243: a response read of eleven bits, whatever the device sends, stores the byte they assemble, gives exactly the reports of
the failed checks in order, and is never shortened. -/
def Obligations.SynchronousReadAssemblesElevenBits : Prop :=
  ∀ (s : State) (j : Nat) (bits : List Level), bits.length = 11 → s.seq = .ctResp j (.waitLow 0 .enter) →
    s.cfg.extPullup = true →
    ∃ t, afterEvents (deviceFrame s.cfg bits) s = .next t ∧
      t.txn = { s.txn with results := s.txn.results ++ [byteOfBits bits] } ∧
      t.diagLog = s.diagLog ++ frameReports .sync bits ∧
      t.seq = (if j + 1 < recvCount s.txn.desc then .ctResp (j + 1) (.waitLow 0 .enter) else .ctEnd) ∧
      t.rxStream = s.rxStream ∧ t.frame = s.frame ∧ t.clkPad = .inPullup ∧ t.dataPad = .inFloat

/-- R170, R106: an admitted operation always ends and returns exactly one result, with as many bytes as its last transaction
reads, whatever the device does and however the agents interleave: within any run of events that lets the longest bound pass
and then takes an engine step as often as the operation has positions. And in every weakly fair schedule, with time steps as
small as they come, whatever is running ends, each admitted operation with one result. Fairness is a premise, in the form
of log 23; the form of `host.result` (log 16) and the composites put aside (log 13) are the model's. -/
def Obligations.EveryOperationEnds : Prop :=
  (∀ (i : Instr) (s : State) (events : List Event), i.WellFormed → s.Inv → s.Ready →
    (∀ e ∈ events, quiet e = true) → operationLength (expansion s.cfg i) ≤ fairRounds s.cfg 0 events →
    ∃ u n t r, exec i s = .next u ∧ n ≤ events.length ∧ afterEvents (events.take n) u = .next t ∧
      t.Ready ∧ t.seq = .idle ∧ t.op.todo = s.op.todo ∧ t.suspended = s.suspended ∧
      t.resultStream = s.resultStream ++ [r] ∧
      ∃ it, (expansion s.cfg i).getLast? = some it ∧ r.bytes.length = recvCount it.desc) ∧
  ∀ (s : State) (schedule : Nat → Event), s.Inv → WeaklyFair schedule → (∀ n, quiet (schedule n) = true) →
    ∃ n t, afterEvents (firstEvents schedule n) s = .next t ∧
      t.inTxn = false ∧ t.seq = .idle ∧ t.op.todo = [] ∧ t.suspended = [] ∧
      t.resultStream.length = s.resultStream.length + s.outstanding

/-- R156, R165, R167, R168, R217, R164: with an external pull-up and a device that clocks every bit, an operation writes and reads
what its expansion lists, whatever the device acknowledges with. The result is the AND of all acknowledgements being `0xFA`,
with the bytes of the last transaction; a `NackError` is reported for each other acknowledgement, in order, and nothing
else; no byte is delivered. The form of `host.result` (log 16) and a composite put aside meanwhile (log 13) are the model's. -/
def Obligations.CooperatingDeviceGetsTheWholeOperation : Prop :=
  ∀ (i : Instr) (s : State) (answers : List Answer), i.WellFormed → s.ModeInv → s.Ready → s.cfg.extPullup = true →
    answersFit answers (expansion s.cfg i) →
    ∃ u t, exec i s = .next u ∧ afterEvents (answeredOperation s.cfg answers) u = .next t ∧
      t.Ready ∧ t.seq = .idle ∧ t.gate = true ∧ t.op.todo = s.op.todo ∧ t.suspended = s.suspended ∧
      t.resultStream = s.resultStream ++
        [{ ok := answers.all fun a => a.acks.all fun b => b == 0xFA#8
           bytes := (answers.getLast?.map Answer.responses).getD [] }] ∧
      t.diagLog = s.diagLog ++ answers.flatMap (fun a => nackReports a.acks) ∧
      t.rxStream = s.rxStream ∧ t.frame = Frame.idle

/-- R215: after a Synaptics initialization with an external pull-up and a device that clocks every bit, the four raw responses are those of the four
`GETINFO`s in order, the snapshot is their parse, and it can be read. The parse is uninterpreted (log 6), made as the
fourth query ends (log 25); the mark of completion is the model's (log 17). -/
def Obligations.SynapticsInitializationKeepsTheResponses : Prop :=
  ∀ (s : State) (answers : List Answer), s.Ready → s.cfg.extPullup = true →
    answersFit answers (expansion s.cfg .synInit) →
    ∃ u t v e r c, exec .synInit s = .next u ∧ afterEvents (answeredOperation s.cfg answers) u = .next t ∧
      (answers.map Answer.responses).filter (fun x => x ≠ []) =
        [[v.r0, v.r1, v.r2], [e.r0, e.r1, e.r2], [r.r0, r.r1, r.r2], [c.r0, c.r1, c.r2]] ∧
      t.syn = { version := some v, extCaps := some e, resolution := some r, clickpad := some c,
                snapshot := some (parseSnapshot v e r c), initDone := true } ∧
      applyEvent .readSnapshot t = .next t

/-! ## The whole machine -/

/-- R254, R27, R31, R62: every step, whatever it is, keeps the two modes apart. -/
def Obligations.EveryStepKeepsTheModesApart : Prop :=
  ∀ s t : State, s.ModeInv → step s = .next t → t.ModeInv

/-- R132, R254, R74, R151-R163, R169: every step keeps the whole invariant, among it that during a write `DATA` shows the frame
of the byte, position after position. -/
def Obligations.EveryStepKeepsTheInvariant : Prop :=
  ∀ s t : State, s.Inv → step s = .next t → t.Inv

/-- The invariant holds right after reset. It rests on the reset values that the model chose (logs 1 to 4). -/
def Obligations.ResetMeetsTheInvariant : Prop := State.reset.Inv

/-- R248, R134, R42: from the invariant, a step faults only where the spec says so: an operation requested from inside the
callback, or a read of the snapshot before the Synaptics initialization. That the handler's event carries the consumer's request is
the model's form (log 18). And in any state at all the engine faults only by reading an unwritten element (R42, R33): an
argument that is not there, or, as a transaction ends of which a response is kept, a response or a raw response. That
completion is a bit of state, and that the responses are read in the step `CT_END`, are the model's readings (logs 17, 25). -/
def Obligations.OnlyContractBreachesFault : Prop :=
  (∀ (s : State) (f : Fault), s.Inv → step s = .fault f →
    (f = .reentrantTransaction ∧ ∃ r, (nextEvent s).1 = .handler (some r)) ∨
    (f = .noValue ∧ (nextEvent s).1 = .readSnapshot ∧ s.syn.initDone = false)) ∧
  ∀ (s : State) (f : Fault), engineStep s = .fault f →
    f = .noValue ∧
    ((∃ i p, s.seq = .ctArg i p ∧ s.txn.args.length ≤ i) ∨
      (s.seq = .ctEnd ∧ ∃ q, (s.op.post = .keep q ∧ s.txn.results.length < 3) ∨
        (s.op.post = .keepAndParse q ∧ (s.txn.results.length < 3 ∨
          s.syn.version = none ∨ s.syn.extCaps = none ∨ s.syn.resolution = none ∨ s.syn.clickpad = none))))

/-- R246, R259, R247: within a transaction, whatever a step reports, `ok` changes exactly by a reported `NackError`; the log
only grows. -/
def Obligations.OnlyNackErrorChangesOk : Prop :=
  ∀ s t : State, s.ModeInv → step s = .next t →
    ∃ reports, t.diagLog = s.diagLog ++ reports ∧
      (s.inTxn = true → t.txn.ok = (s.txn.ok && reports.all fun e => !(e.error == .nackError)))

/-- R40, R247: no rule reads the log: with any other log, every step does the same and reports the same. -/
def Obligations.DiagnosticLogIsNeverRead : Prop :=
  ∀ (s : State) (log : List DiagEvent),
    (∀ t, step s = .next t → ∃ reports, t.diagLog = s.diagLog ++ reports ∧
      step { s with diagLog := log } = .next { t with diagLog := log ++ reports }) ∧
    (∀ f, step s = .fault f → step { s with diagLog := log } = .fault f) ∧
    (∀ r, step s = .refused r → step { s with diagLog := log } = .refused r)

/-- R27: the gate is written by three events only: `begin` opens it, a transaction's start closes it, its end opens it. -/
def Obligations.OnlyThreeEventsWriteTheGate : Prop :=
  ∀ s t : State, step s = .next t → t.gate ≠ s.gate →
    (t.gate = true ∧ ∃ cp dp cb, (nextEvent s).1 = .caller (.begin cp dp cb)) ∨
    (t.gate = false ∧ t.inTxn = true ∧ t.seq = .ctOpcode .rtsClk ∧
      ((∃ w, (nextEvent s).1 = .caller (.op w)) ∨ ((nextEvent s).1 = .engine ∧ s.seq = .ctBegin))) ∨
    (t.gate = true ∧ t.inTxn = false ∧ (nextEvent s).1 = .engine ∧ s.seq = .ctEnd)

/-- R26: the receive frame registers are written only by the handler, by a transaction's start and by `begin`; the last two make
them idle. -/
def Obligations.OnlyThreeEventsWriteTheFrame : Prop :=
  ∀ s t : State, step s = .next t → t.frame ≠ s.frame →
    (∃ c, (nextEvent s).1 = .handler c ∧ s.gate = true ∧ s.edgePending = true) ∨
    (t.frame = Frame.idle ∧ t.inTxn = true ∧ t.seq = .ctOpcode .rtsClk ∧
      ((∃ w, (nextEvent s).1 = .caller (.op w)) ∨ ((nextEvent s).1 = .engine ∧ s.seq = .ctBegin))) ∨
    (t.frame = Frame.idle ∧ ∃ cp dp cb, (nextEvent s).1 = .caller (.begin cp dp cb))

/-- R21, R36, R30: the configuration of the link changes by `begin` alone, time by a `time` event alone and never back, the
device's ends by the device alone, and the parameters never. -/
def Obligations.EnvironmentStateChangesByItsOwnEventsAlone : Prop :=
  ∀ s t : State, step s = .next t →
    t.cfg = s.cfg ∧ s.now ≤ t.now ∧
    (t.link ≠ s.link → ∃ cp dp cb, (nextEvent s).1 = .caller (.begin cp dp cb) ∧
      t.link = { clockPin := cp, dataPin := dp, callback := cb }) ∧
    (t.now ≠ s.now → ∃ d, (nextEvent s).1 = .time d ∧ t.now = s.now + d) ∧
    ((t.clkDevLow ≠ s.clkDevLow ∨ t.dataDevLow ≠ s.dataDevLow) → ∃ l low, (nextEvent s).1 = .device l low)

/-- R62, R254, R219, R66, R38, R215: who writes the shared lines, the Synaptics store and the results. A pad changes by the
handler's step with an edge pending and the gate open, by `begin`, and by the engine within a transaction. The store changes at
the end of a transaction of which something is kept, and the results at the end of an operation's last transaction. That
the store is written in the step `CT_END` (log 25), that the mark of completion is a part of it (log 17), and that the results
are a list (log 16) are the model's readings. -/
def Obligations.OnlyTheirOwnersWriteThePadsTheStoreAndTheResults : Prop :=
  ∀ s t : State, step s = .next t →
    ((t.clkPad ≠ s.clkPad ∨ t.dataPad ≠ s.dataPad) →
      ((∃ c, (nextEvent s).1 = .handler c) ∧ s.gate = true ∧ s.edgePending = true) ∨
      ((nextEvent s).1 = .engine ∧ s.seq.inTransaction = true) ∨
      ∃ cp dp cb, (nextEvent s).1 = .caller (.begin cp dp cb)) ∧
    (t.syn ≠ s.syn → (nextEvent s).1 = .engine ∧ s.seq = .ctEnd ∧ s.op.post ≠ .nothing) ∧
    (t.resultStream ≠ s.resultStream → (nextEvent s).1 = .engine ∧ s.seq = .ctEnd ∧ s.op.todo = [])
end

