-- ==== Sys2Proof/Laws/State.lean ====
section
/-! SUPPORT. One lemma per field per named update of the state, so that no later proof unfolds a record update. -/

namespace Sys2Proof.Machine

/-! ### `setPad` -/

@[simp] theorem setPad_cfg (s : State) (l : Line) (m : Pad) : (s.setPad l m).cfg = s.cfg := by cases l <;> rfl
@[simp] theorem setPad_link (s : State) (l : Line) (m : Pad) : (s.setPad l m).link = s.link := by cases l <;> rfl
@[simp] theorem setPad_configured (s : State) (l : Line) (m : Pad) : (s.setPad l m).configured = s.configured := by cases l <;> rfl
@[simp] theorem setPad_frame (s : State) (l : Line) (m : Pad) : (s.setPad l m).frame = s.frame := by cases l <;> rfl
@[simp] theorem setPad_gate (s : State) (l : Line) (m : Pad) : (s.setPad l m).gate = s.gate := by cases l <;> rfl
@[simp] theorem setPad_edgePending (s : State) (l : Line) (m : Pad) : (s.setPad l m).edgePending = s.edgePending := by cases l <;> rfl
@[simp] theorem setPad_clkDevLow (s : State) (l : Line) (m : Pad) : (s.setPad l m).clkDevLow = s.clkDevLow := by cases l <;> rfl
@[simp] theorem setPad_dataDevLow (s : State) (l : Line) (m : Pad) : (s.setPad l m).dataDevLow = s.dataDevLow := by cases l <;> rfl
@[simp] theorem setPad_inTxn (s : State) (l : Line) (m : Pad) : (s.setPad l m).inTxn = s.inTxn := by cases l <;> rfl
@[simp] theorem setPad_inHandler (s : State) (l : Line) (m : Pad) : (s.setPad l m).inHandler = s.inHandler := by cases l <;> rfl
@[simp] theorem setPad_txn (s : State) (l : Line) (m : Pad) : (s.setPad l m).txn = s.txn := by cases l <;> rfl
@[simp] theorem setPad_wb (s : State) (l : Line) (m : Pad) : (s.setPad l m).wb = s.wb := by cases l <;> rfl
@[simp] theorem setPad_rb (s : State) (l : Line) (m : Pad) : (s.setPad l m).rb = s.rb := by cases l <;> rfl
@[simp] theorem setPad_waitT0 (s : State) (l : Line) (m : Pad) : (s.setPad l m).waitT0 = s.waitT0 := by cases l <;> rfl
@[simp] theorem setPad_now (s : State) (l : Line) (m : Pad) : (s.setPad l m).now = s.now := by cases l <;> rfl
@[simp] theorem setPad_seq (s : State) (l : Line) (m : Pad) : (s.setPad l m).seq = s.seq := by cases l <;> rfl
@[simp] theorem setPad_op (s : State) (l : Line) (m : Pad) : (s.setPad l m).op = s.op := by cases l <;> rfl
@[simp] theorem setPad_suspended (s : State) (l : Line) (m : Pad) : (s.setPad l m).suspended = s.suspended := by cases l <;> rfl
@[simp] theorem setPad_syn (s : State) (l : Line) (m : Pad) : (s.setPad l m).syn = s.syn := by cases l <;> rfl
@[simp] theorem setPad_rxStream (s : State) (l : Line) (m : Pad) : (s.setPad l m).rxStream = s.rxStream := by cases l <;> rfl
@[simp] theorem setPad_diagLog (s : State) (l : Line) (m : Pad) : (s.setPad l m).diagLog = s.diagLog := by cases l <;> rfl
@[simp] theorem setPad_resultStream (s : State) (l : Line) (m : Pad) : (s.setPad l m).resultStream = s.resultStream := by cases l <;> rfl
@[simp] theorem setPad_inputs (s : State) (l : Line) (m : Pad) : (s.setPad l m).inputs = s.inputs := by cases l <;> rfl
@[simp] theorem setPad_draws (s : State) (l : Line) (m : Pad) : (s.setPad l m).draws = s.draws := by cases l <;> rfl
@[simp] theorem setPad_choices (s : State) (l : Line) (m : Pad) : (s.setPad l m).choices = s.choices := by cases l <;> rfl

/-! ### `setDevLow` -/

@[simp] theorem setDevLow_cfg (s : State) (l : Line) (low : Bool) : (s.setDevLow l low).cfg = s.cfg := by cases l <;> rfl
@[simp] theorem setDevLow_link (s : State) (l : Line) (low : Bool) : (s.setDevLow l low).link = s.link := by cases l <;> rfl
@[simp] theorem setDevLow_configured (s : State) (l : Line) (low : Bool) : (s.setDevLow l low).configured = s.configured := by cases l <;> rfl
@[simp] theorem setDevLow_frame (s : State) (l : Line) (low : Bool) : (s.setDevLow l low).frame = s.frame := by cases l <;> rfl
@[simp] theorem setDevLow_gate (s : State) (l : Line) (low : Bool) : (s.setDevLow l low).gate = s.gate := by cases l <;> rfl
@[simp] theorem setDevLow_edgePending (s : State) (l : Line) (low : Bool) : (s.setDevLow l low).edgePending = s.edgePending := by cases l <;> rfl
@[simp] theorem setDevLow_clkPad (s : State) (l : Line) (low : Bool) : (s.setDevLow l low).clkPad = s.clkPad := by cases l <;> rfl
@[simp] theorem setDevLow_dataPad (s : State) (l : Line) (low : Bool) : (s.setDevLow l low).dataPad = s.dataPad := by cases l <;> rfl
@[simp] theorem setDevLow_inTxn (s : State) (l : Line) (low : Bool) : (s.setDevLow l low).inTxn = s.inTxn := by cases l <;> rfl
@[simp] theorem setDevLow_inHandler (s : State) (l : Line) (low : Bool) : (s.setDevLow l low).inHandler = s.inHandler := by cases l <;> rfl
@[simp] theorem setDevLow_txn (s : State) (l : Line) (low : Bool) : (s.setDevLow l low).txn = s.txn := by cases l <;> rfl
@[simp] theorem setDevLow_wb (s : State) (l : Line) (low : Bool) : (s.setDevLow l low).wb = s.wb := by cases l <;> rfl
@[simp] theorem setDevLow_rb (s : State) (l : Line) (low : Bool) : (s.setDevLow l low).rb = s.rb := by cases l <;> rfl
@[simp] theorem setDevLow_waitT0 (s : State) (l : Line) (low : Bool) : (s.setDevLow l low).waitT0 = s.waitT0 := by cases l <;> rfl
@[simp] theorem setDevLow_now (s : State) (l : Line) (low : Bool) : (s.setDevLow l low).now = s.now := by cases l <;> rfl
@[simp] theorem setDevLow_seq (s : State) (l : Line) (low : Bool) : (s.setDevLow l low).seq = s.seq := by cases l <;> rfl
@[simp] theorem setDevLow_op (s : State) (l : Line) (low : Bool) : (s.setDevLow l low).op = s.op := by cases l <;> rfl
@[simp] theorem setDevLow_suspended (s : State) (l : Line) (low : Bool) : (s.setDevLow l low).suspended = s.suspended := by cases l <;> rfl
@[simp] theorem setDevLow_syn (s : State) (l : Line) (low : Bool) : (s.setDevLow l low).syn = s.syn := by cases l <;> rfl
@[simp] theorem setDevLow_rxStream (s : State) (l : Line) (low : Bool) : (s.setDevLow l low).rxStream = s.rxStream := by cases l <;> rfl
@[simp] theorem setDevLow_diagLog (s : State) (l : Line) (low : Bool) : (s.setDevLow l low).diagLog = s.diagLog := by cases l <;> rfl
@[simp] theorem setDevLow_resultStream (s : State) (l : Line) (low : Bool) : (s.setDevLow l low).resultStream = s.resultStream := by cases l <;> rfl
@[simp] theorem setDevLow_inputs (s : State) (l : Line) (low : Bool) : (s.setDevLow l low).inputs = s.inputs := by cases l <;> rfl
@[simp] theorem setDevLow_draws (s : State) (l : Line) (low : Bool) : (s.setDevLow l low).draws = s.draws := by cases l <;> rfl
@[simp] theorem setDevLow_choices (s : State) (l : Line) (low : Bool) : (s.setDevLow l low).choices = s.choices := by cases l <;> rfl

/-! ### `nextDraw` -/

@[simp] theorem nextDraw_cfg (s : State) : s.nextDraw.cfg = s.cfg := rfl
@[simp] theorem nextDraw_link (s : State) : s.nextDraw.link = s.link := rfl
@[simp] theorem nextDraw_configured (s : State) : s.nextDraw.configured = s.configured := rfl
@[simp] theorem nextDraw_frame (s : State) : s.nextDraw.frame = s.frame := rfl
@[simp] theorem nextDraw_gate (s : State) : s.nextDraw.gate = s.gate := rfl
@[simp] theorem nextDraw_edgePending (s : State) : s.nextDraw.edgePending = s.edgePending := rfl
@[simp] theorem nextDraw_clkPad (s : State) : s.nextDraw.clkPad = s.clkPad := rfl
@[simp] theorem nextDraw_dataPad (s : State) : s.nextDraw.dataPad = s.dataPad := rfl
@[simp] theorem nextDraw_clkDevLow (s : State) : s.nextDraw.clkDevLow = s.clkDevLow := rfl
@[simp] theorem nextDraw_dataDevLow (s : State) : s.nextDraw.dataDevLow = s.dataDevLow := rfl
@[simp] theorem nextDraw_inTxn (s : State) : s.nextDraw.inTxn = s.inTxn := rfl
@[simp] theorem nextDraw_inHandler (s : State) : s.nextDraw.inHandler = s.inHandler := rfl
@[simp] theorem nextDraw_txn (s : State) : s.nextDraw.txn = s.txn := rfl
@[simp] theorem nextDraw_wb (s : State) : s.nextDraw.wb = s.wb := rfl
@[simp] theorem nextDraw_rb (s : State) : s.nextDraw.rb = s.rb := rfl
@[simp] theorem nextDraw_waitT0 (s : State) : s.nextDraw.waitT0 = s.waitT0 := rfl
@[simp] theorem nextDraw_now (s : State) : s.nextDraw.now = s.now := rfl
@[simp] theorem nextDraw_seq (s : State) : s.nextDraw.seq = s.seq := rfl
@[simp] theorem nextDraw_op (s : State) : s.nextDraw.op = s.op := rfl
@[simp] theorem nextDraw_suspended (s : State) : s.nextDraw.suspended = s.suspended := rfl
@[simp] theorem nextDraw_syn (s : State) : s.nextDraw.syn = s.syn := rfl
@[simp] theorem nextDraw_rxStream (s : State) : s.nextDraw.rxStream = s.rxStream := rfl
@[simp] theorem nextDraw_diagLog (s : State) : s.nextDraw.diagLog = s.diagLog := rfl
@[simp] theorem nextDraw_resultStream (s : State) : s.nextDraw.resultStream = s.resultStream := rfl
@[simp] theorem nextDraw_inputs (s : State) : s.nextDraw.inputs = s.inputs := rfl
@[simp] theorem nextDraw_draws (s : State) : s.nextDraw.draws = s.draws + 1 := rfl
@[simp] theorem nextDraw_choices (s : State) : s.nextDraw.choices = s.choices := rfl

/-! ### `driveLow` -/

@[simp] theorem driveLow_cfg (l : Line) (s : State) : (driveLow l s).cfg = s.cfg := by cases l <;> rfl
@[simp] theorem driveLow_link (l : Line) (s : State) : (driveLow l s).link = s.link := by cases l <;> rfl
@[simp] theorem driveLow_configured (l : Line) (s : State) : (driveLow l s).configured = s.configured := by cases l <;> rfl
@[simp] theorem driveLow_frame (l : Line) (s : State) : (driveLow l s).frame = s.frame := by cases l <;> rfl
@[simp] theorem driveLow_gate (l : Line) (s : State) : (driveLow l s).gate = s.gate := by cases l <;> rfl
@[simp] theorem driveLow_edgePending (l : Line) (s : State) : (driveLow l s).edgePending = s.edgePending := by cases l <;> rfl
@[simp] theorem driveLow_clkDevLow (l : Line) (s : State) : (driveLow l s).clkDevLow = s.clkDevLow := by cases l <;> rfl
@[simp] theorem driveLow_dataDevLow (l : Line) (s : State) : (driveLow l s).dataDevLow = s.dataDevLow := by cases l <;> rfl
@[simp] theorem driveLow_inTxn (l : Line) (s : State) : (driveLow l s).inTxn = s.inTxn := by cases l <;> rfl
@[simp] theorem driveLow_inHandler (l : Line) (s : State) : (driveLow l s).inHandler = s.inHandler := by cases l <;> rfl
@[simp] theorem driveLow_txn (l : Line) (s : State) : (driveLow l s).txn = s.txn := by cases l <;> rfl
@[simp] theorem driveLow_wb (l : Line) (s : State) : (driveLow l s).wb = s.wb := by cases l <;> rfl
@[simp] theorem driveLow_rb (l : Line) (s : State) : (driveLow l s).rb = s.rb := by cases l <;> rfl
@[simp] theorem driveLow_waitT0 (l : Line) (s : State) : (driveLow l s).waitT0 = s.waitT0 := by cases l <;> rfl
@[simp] theorem driveLow_now (l : Line) (s : State) : (driveLow l s).now = s.now := by cases l <;> rfl
@[simp] theorem driveLow_seq (l : Line) (s : State) : (driveLow l s).seq = s.seq := by cases l <;> rfl
@[simp] theorem driveLow_op (l : Line) (s : State) : (driveLow l s).op = s.op := by cases l <;> rfl
@[simp] theorem driveLow_suspended (l : Line) (s : State) : (driveLow l s).suspended = s.suspended := by cases l <;> rfl
@[simp] theorem driveLow_syn (l : Line) (s : State) : (driveLow l s).syn = s.syn := by cases l <;> rfl
@[simp] theorem driveLow_rxStream (l : Line) (s : State) : (driveLow l s).rxStream = s.rxStream := by cases l <;> rfl
@[simp] theorem driveLow_diagLog (l : Line) (s : State) : (driveLow l s).diagLog = s.diagLog := by cases l <;> rfl
@[simp] theorem driveLow_resultStream (l : Line) (s : State) : (driveLow l s).resultStream = s.resultStream := by cases l <;> rfl
@[simp] theorem driveLow_inputs (l : Line) (s : State) : (driveLow l s).inputs = s.inputs := by cases l <;> rfl
@[simp] theorem driveLow_draws (l : Line) (s : State) : (driveLow l s).draws = s.draws := by cases l <;> rfl
@[simp] theorem driveLow_choices (l : Line) (s : State) : (driveLow l s).choices = s.choices := by cases l <;> rfl

/-! ### `releaseHigh` -/

@[simp] theorem releaseHigh_cfg (l : Line) (s : State) : (releaseHigh l s).cfg = s.cfg := by cases l <;> rfl
@[simp] theorem releaseHigh_link (l : Line) (s : State) : (releaseHigh l s).link = s.link := by cases l <;> rfl
@[simp] theorem releaseHigh_configured (l : Line) (s : State) : (releaseHigh l s).configured = s.configured := by cases l <;> rfl
@[simp] theorem releaseHigh_frame (l : Line) (s : State) : (releaseHigh l s).frame = s.frame := by cases l <;> rfl
@[simp] theorem releaseHigh_gate (l : Line) (s : State) : (releaseHigh l s).gate = s.gate := by cases l <;> rfl
@[simp] theorem releaseHigh_edgePending (l : Line) (s : State) : (releaseHigh l s).edgePending = s.edgePending := by cases l <;> rfl
@[simp] theorem releaseHigh_clkDevLow (l : Line) (s : State) : (releaseHigh l s).clkDevLow = s.clkDevLow := by cases l <;> rfl
@[simp] theorem releaseHigh_dataDevLow (l : Line) (s : State) : (releaseHigh l s).dataDevLow = s.dataDevLow := by cases l <;> rfl
@[simp] theorem releaseHigh_inTxn (l : Line) (s : State) : (releaseHigh l s).inTxn = s.inTxn := by cases l <;> rfl
@[simp] theorem releaseHigh_inHandler (l : Line) (s : State) : (releaseHigh l s).inHandler = s.inHandler := by cases l <;> rfl
@[simp] theorem releaseHigh_txn (l : Line) (s : State) : (releaseHigh l s).txn = s.txn := by cases l <;> rfl
@[simp] theorem releaseHigh_wb (l : Line) (s : State) : (releaseHigh l s).wb = s.wb := by cases l <;> rfl
@[simp] theorem releaseHigh_rb (l : Line) (s : State) : (releaseHigh l s).rb = s.rb := by cases l <;> rfl
@[simp] theorem releaseHigh_waitT0 (l : Line) (s : State) : (releaseHigh l s).waitT0 = s.waitT0 := by cases l <;> rfl
@[simp] theorem releaseHigh_now (l : Line) (s : State) : (releaseHigh l s).now = s.now := by cases l <;> rfl
@[simp] theorem releaseHigh_seq (l : Line) (s : State) : (releaseHigh l s).seq = s.seq := by cases l <;> rfl
@[simp] theorem releaseHigh_op (l : Line) (s : State) : (releaseHigh l s).op = s.op := by cases l <;> rfl
@[simp] theorem releaseHigh_suspended (l : Line) (s : State) : (releaseHigh l s).suspended = s.suspended := by cases l <;> rfl
@[simp] theorem releaseHigh_syn (l : Line) (s : State) : (releaseHigh l s).syn = s.syn := by cases l <;> rfl
@[simp] theorem releaseHigh_rxStream (l : Line) (s : State) : (releaseHigh l s).rxStream = s.rxStream := by cases l <;> rfl
@[simp] theorem releaseHigh_diagLog (l : Line) (s : State) : (releaseHigh l s).diagLog = s.diagLog := by cases l <;> rfl
@[simp] theorem releaseHigh_resultStream (l : Line) (s : State) : (releaseHigh l s).resultStream = s.resultStream := by cases l <;> rfl
@[simp] theorem releaseHigh_inputs (l : Line) (s : State) : (releaseHigh l s).inputs = s.inputs := by cases l <;> rfl
@[simp] theorem releaseHigh_draws (l : Line) (s : State) : (releaseHigh l s).draws = s.draws := by cases l <;> rfl
@[simp] theorem releaseHigh_choices (l : Line) (s : State) : (releaseHigh l s).choices = s.choices := by cases l <;> rfl

/-! ### `setData` -/

@[simp] theorem setData_cfg (v : Level) (s : State) : (setData v s).cfg = s.cfg := by cases v <;> rfl
@[simp] theorem setData_link (v : Level) (s : State) : (setData v s).link = s.link := by cases v <;> rfl
@[simp] theorem setData_configured (v : Level) (s : State) : (setData v s).configured = s.configured := by cases v <;> rfl
@[simp] theorem setData_frame (v : Level) (s : State) : (setData v s).frame = s.frame := by cases v <;> rfl
@[simp] theorem setData_gate (v : Level) (s : State) : (setData v s).gate = s.gate := by cases v <;> rfl
@[simp] theorem setData_edgePending (v : Level) (s : State) : (setData v s).edgePending = s.edgePending := by cases v <;> rfl
@[simp] theorem setData_clkPad (v : Level) (s : State) : (setData v s).clkPad = s.clkPad := by cases v <;> rfl
@[simp] theorem setData_dataPad (v : Level) (s : State) : (setData v s).dataPad = padOfBit v := by cases v <;> rfl
@[simp] theorem setData_clkDevLow (v : Level) (s : State) : (setData v s).clkDevLow = s.clkDevLow := by cases v <;> rfl
@[simp] theorem setData_dataDevLow (v : Level) (s : State) : (setData v s).dataDevLow = s.dataDevLow := by cases v <;> rfl
@[simp] theorem setData_inTxn (v : Level) (s : State) : (setData v s).inTxn = s.inTxn := by cases v <;> rfl
@[simp] theorem setData_inHandler (v : Level) (s : State) : (setData v s).inHandler = s.inHandler := by cases v <;> rfl
@[simp] theorem setData_txn (v : Level) (s : State) : (setData v s).txn = s.txn := by cases v <;> rfl
@[simp] theorem setData_wb (v : Level) (s : State) : (setData v s).wb = s.wb := by cases v <;> rfl
@[simp] theorem setData_rb (v : Level) (s : State) : (setData v s).rb = s.rb := by cases v <;> rfl
@[simp] theorem setData_waitT0 (v : Level) (s : State) : (setData v s).waitT0 = s.waitT0 := by cases v <;> rfl
@[simp] theorem setData_now (v : Level) (s : State) : (setData v s).now = s.now := by cases v <;> rfl
@[simp] theorem setData_seq (v : Level) (s : State) : (setData v s).seq = s.seq := by cases v <;> rfl
@[simp] theorem setData_op (v : Level) (s : State) : (setData v s).op = s.op := by cases v <;> rfl
@[simp] theorem setData_suspended (v : Level) (s : State) : (setData v s).suspended = s.suspended := by cases v <;> rfl
@[simp] theorem setData_syn (v : Level) (s : State) : (setData v s).syn = s.syn := by cases v <;> rfl
@[simp] theorem setData_rxStream (v : Level) (s : State) : (setData v s).rxStream = s.rxStream := by cases v <;> rfl
@[simp] theorem setData_diagLog (v : Level) (s : State) : (setData v s).diagLog = s.diagLog := by cases v <;> rfl
@[simp] theorem setData_resultStream (v : Level) (s : State) : (setData v s).resultStream = s.resultStream := by cases v <;> rfl
@[simp] theorem setData_inputs (v : Level) (s : State) : (setData v s).inputs = s.inputs := by cases v <;> rfl
@[simp] theorem setData_draws (v : Level) (s : State) : (setData v s).draws = s.draws := by cases v <;> rfl
@[simp] theorem setData_choices (v : Level) (s : State) : (setData v s).choices = s.choices := by cases v <;> rfl

/-! ### `report` -/

@[simp] theorem report_cfg (e : ErrorName) (c : DiagContext) (i : DiagInfo) (s : State) : (report e c i s).cfg = s.cfg := rfl
@[simp] theorem report_link (e : ErrorName) (c : DiagContext) (i : DiagInfo) (s : State) : (report e c i s).link = s.link := rfl
@[simp] theorem report_configured (e : ErrorName) (c : DiagContext) (i : DiagInfo) (s : State) : (report e c i s).configured = s.configured := rfl
@[simp] theorem report_frame (e : ErrorName) (c : DiagContext) (i : DiagInfo) (s : State) : (report e c i s).frame = s.frame := rfl
@[simp] theorem report_gate (e : ErrorName) (c : DiagContext) (i : DiagInfo) (s : State) : (report e c i s).gate = s.gate := rfl
@[simp] theorem report_edgePending (e : ErrorName) (c : DiagContext) (i : DiagInfo) (s : State) : (report e c i s).edgePending = s.edgePending := rfl
@[simp] theorem report_clkPad (e : ErrorName) (c : DiagContext) (i : DiagInfo) (s : State) : (report e c i s).clkPad = s.clkPad := rfl
@[simp] theorem report_dataPad (e : ErrorName) (c : DiagContext) (i : DiagInfo) (s : State) : (report e c i s).dataPad = s.dataPad := rfl
@[simp] theorem report_clkDevLow (e : ErrorName) (c : DiagContext) (i : DiagInfo) (s : State) : (report e c i s).clkDevLow = s.clkDevLow := rfl
@[simp] theorem report_dataDevLow (e : ErrorName) (c : DiagContext) (i : DiagInfo) (s : State) : (report e c i s).dataDevLow = s.dataDevLow := rfl
@[simp] theorem report_inTxn (e : ErrorName) (c : DiagContext) (i : DiagInfo) (s : State) : (report e c i s).inTxn = s.inTxn := rfl
@[simp] theorem report_inHandler (e : ErrorName) (c : DiagContext) (i : DiagInfo) (s : State) : (report e c i s).inHandler = s.inHandler := rfl
@[simp] theorem report_txn (e : ErrorName) (c : DiagContext) (i : DiagInfo) (s : State) : (report e c i s).txn = s.txn := rfl
@[simp] theorem report_wb (e : ErrorName) (c : DiagContext) (i : DiagInfo) (s : State) : (report e c i s).wb = s.wb := rfl
@[simp] theorem report_rb (e : ErrorName) (c : DiagContext) (i : DiagInfo) (s : State) : (report e c i s).rb = s.rb := rfl
@[simp] theorem report_waitT0 (e : ErrorName) (c : DiagContext) (i : DiagInfo) (s : State) : (report e c i s).waitT0 = s.waitT0 := rfl
@[simp] theorem report_now (e : ErrorName) (c : DiagContext) (i : DiagInfo) (s : State) : (report e c i s).now = s.now := rfl
@[simp] theorem report_seq (e : ErrorName) (c : DiagContext) (i : DiagInfo) (s : State) : (report e c i s).seq = s.seq := rfl
@[simp] theorem report_op (e : ErrorName) (c : DiagContext) (i : DiagInfo) (s : State) : (report e c i s).op = s.op := rfl
@[simp] theorem report_suspended (e : ErrorName) (c : DiagContext) (i : DiagInfo) (s : State) : (report e c i s).suspended = s.suspended := rfl
@[simp] theorem report_syn (e : ErrorName) (c : DiagContext) (i : DiagInfo) (s : State) : (report e c i s).syn = s.syn := rfl
@[simp] theorem report_rxStream (e : ErrorName) (c : DiagContext) (i : DiagInfo) (s : State) : (report e c i s).rxStream = s.rxStream := rfl
@[simp] theorem report_diagLog (e : ErrorName) (c : DiagContext) (i : DiagInfo) (s : State) : (report e c i s).diagLog = s.diagLog ++ [{ error := e, context := c, info := i }] := rfl
@[simp] theorem report_resultStream (e : ErrorName) (c : DiagContext) (i : DiagInfo) (s : State) : (report e c i s).resultStream = s.resultStream := rfl
@[simp] theorem report_inputs (e : ErrorName) (c : DiagContext) (i : DiagInfo) (s : State) : (report e c i s).inputs = s.inputs := rfl
@[simp] theorem report_draws (e : ErrorName) (c : DiagContext) (i : DiagInfo) (s : State) : (report e c i s).draws = s.draws := rfl
@[simp] theorem report_choices (e : ErrorName) (c : DiagContext) (i : DiagInfo) (s : State) : (report e c i s).choices = s.choices := rfl

/-! ### `check` -/

@[simp] theorem check_cfg (b : Bool) (e : ErrorName) (c : DiagContext) (i : DiagInfo) (s : State) : (check b e c i s).cfg = s.cfg := by cases b <;> rfl
@[simp] theorem check_link (b : Bool) (e : ErrorName) (c : DiagContext) (i : DiagInfo) (s : State) : (check b e c i s).link = s.link := by cases b <;> rfl
@[simp] theorem check_configured (b : Bool) (e : ErrorName) (c : DiagContext) (i : DiagInfo) (s : State) : (check b e c i s).configured = s.configured := by cases b <;> rfl
@[simp] theorem check_frame (b : Bool) (e : ErrorName) (c : DiagContext) (i : DiagInfo) (s : State) : (check b e c i s).frame = s.frame := by cases b <;> rfl
@[simp] theorem check_gate (b : Bool) (e : ErrorName) (c : DiagContext) (i : DiagInfo) (s : State) : (check b e c i s).gate = s.gate := by cases b <;> rfl
@[simp] theorem check_edgePending (b : Bool) (e : ErrorName) (c : DiagContext) (i : DiagInfo) (s : State) : (check b e c i s).edgePending = s.edgePending := by cases b <;> rfl
@[simp] theorem check_clkPad (b : Bool) (e : ErrorName) (c : DiagContext) (i : DiagInfo) (s : State) : (check b e c i s).clkPad = s.clkPad := by cases b <;> rfl
@[simp] theorem check_dataPad (b : Bool) (e : ErrorName) (c : DiagContext) (i : DiagInfo) (s : State) : (check b e c i s).dataPad = s.dataPad := by cases b <;> rfl
@[simp] theorem check_clkDevLow (b : Bool) (e : ErrorName) (c : DiagContext) (i : DiagInfo) (s : State) : (check b e c i s).clkDevLow = s.clkDevLow := by cases b <;> rfl
@[simp] theorem check_dataDevLow (b : Bool) (e : ErrorName) (c : DiagContext) (i : DiagInfo) (s : State) : (check b e c i s).dataDevLow = s.dataDevLow := by cases b <;> rfl
@[simp] theorem check_inTxn (b : Bool) (e : ErrorName) (c : DiagContext) (i : DiagInfo) (s : State) : (check b e c i s).inTxn = s.inTxn := by cases b <;> rfl
@[simp] theorem check_inHandler (b : Bool) (e : ErrorName) (c : DiagContext) (i : DiagInfo) (s : State) : (check b e c i s).inHandler = s.inHandler := by cases b <;> rfl
@[simp] theorem check_txn (b : Bool) (e : ErrorName) (c : DiagContext) (i : DiagInfo) (s : State) : (check b e c i s).txn = s.txn := by cases b <;> rfl
@[simp] theorem check_wb (b : Bool) (e : ErrorName) (c : DiagContext) (i : DiagInfo) (s : State) : (check b e c i s).wb = s.wb := by cases b <;> rfl
@[simp] theorem check_rb (b : Bool) (e : ErrorName) (c : DiagContext) (i : DiagInfo) (s : State) : (check b e c i s).rb = s.rb := by cases b <;> rfl
@[simp] theorem check_waitT0 (b : Bool) (e : ErrorName) (c : DiagContext) (i : DiagInfo) (s : State) : (check b e c i s).waitT0 = s.waitT0 := by cases b <;> rfl
@[simp] theorem check_now (b : Bool) (e : ErrorName) (c : DiagContext) (i : DiagInfo) (s : State) : (check b e c i s).now = s.now := by cases b <;> rfl
@[simp] theorem check_seq (b : Bool) (e : ErrorName) (c : DiagContext) (i : DiagInfo) (s : State) : (check b e c i s).seq = s.seq := by cases b <;> rfl
@[simp] theorem check_op (b : Bool) (e : ErrorName) (c : DiagContext) (i : DiagInfo) (s : State) : (check b e c i s).op = s.op := by cases b <;> rfl
@[simp] theorem check_suspended (b : Bool) (e : ErrorName) (c : DiagContext) (i : DiagInfo) (s : State) : (check b e c i s).suspended = s.suspended := by cases b <;> rfl
@[simp] theorem check_syn (b : Bool) (e : ErrorName) (c : DiagContext) (i : DiagInfo) (s : State) : (check b e c i s).syn = s.syn := by cases b <;> rfl
@[simp] theorem check_rxStream (b : Bool) (e : ErrorName) (c : DiagContext) (i : DiagInfo) (s : State) : (check b e c i s).rxStream = s.rxStream := by cases b <;> rfl
@[simp] theorem check_resultStream (b : Bool) (e : ErrorName) (c : DiagContext) (i : DiagInfo) (s : State) : (check b e c i s).resultStream = s.resultStream := by cases b <;> rfl
@[simp] theorem check_inputs (b : Bool) (e : ErrorName) (c : DiagContext) (i : DiagInfo) (s : State) : (check b e c i s).inputs = s.inputs := by cases b <;> rfl
@[simp] theorem check_draws (b : Bool) (e : ErrorName) (c : DiagContext) (i : DiagInfo) (s : State) : (check b e c i s).draws = s.draws := by cases b <;> rfl
@[simp] theorem check_choices (b : Bool) (e : ErrorName) (c : DiagContext) (i : DiagInfo) (s : State) : (check b e c i s).choices = s.choices := by cases b <;> rfl

/-! ### `waitEnter` -/

@[simp] theorem waitEnter_cfg (t : Level) (s : State) : (waitEnter t s).cfg = s.cfg := rfl
@[simp] theorem waitEnter_link (t : Level) (s : State) : (waitEnter t s).link = s.link := rfl
@[simp] theorem waitEnter_configured (t : Level) (s : State) : (waitEnter t s).configured = s.configured := rfl
@[simp] theorem waitEnter_frame (t : Level) (s : State) : (waitEnter t s).frame = s.frame := rfl
@[simp] theorem waitEnter_gate (t : Level) (s : State) : (waitEnter t s).gate = s.gate := rfl
@[simp] theorem waitEnter_edgePending (t : Level) (s : State) : (waitEnter t s).edgePending = s.edgePending := rfl
@[simp] theorem waitEnter_clkPad (t : Level) (s : State) : (waitEnter t s).clkPad = waitPad t := rfl
@[simp] theorem waitEnter_dataPad (t : Level) (s : State) : (waitEnter t s).dataPad = s.dataPad := rfl
@[simp] theorem waitEnter_clkDevLow (t : Level) (s : State) : (waitEnter t s).clkDevLow = s.clkDevLow := rfl
@[simp] theorem waitEnter_dataDevLow (t : Level) (s : State) : (waitEnter t s).dataDevLow = s.dataDevLow := rfl
@[simp] theorem waitEnter_inTxn (t : Level) (s : State) : (waitEnter t s).inTxn = s.inTxn := rfl
@[simp] theorem waitEnter_inHandler (t : Level) (s : State) : (waitEnter t s).inHandler = s.inHandler := rfl
@[simp] theorem waitEnter_txn (t : Level) (s : State) : (waitEnter t s).txn = s.txn := rfl
@[simp] theorem waitEnter_wb (t : Level) (s : State) : (waitEnter t s).wb = s.wb := rfl
@[simp] theorem waitEnter_rb (t : Level) (s : State) : (waitEnter t s).rb = s.rb := rfl
@[simp] theorem waitEnter_waitT0 (t : Level) (s : State) : (waitEnter t s).waitT0 = s.now := rfl
@[simp] theorem waitEnter_now (t : Level) (s : State) : (waitEnter t s).now = s.now := rfl
@[simp] theorem waitEnter_seq (t : Level) (s : State) : (waitEnter t s).seq = s.seq := rfl
@[simp] theorem waitEnter_op (t : Level) (s : State) : (waitEnter t s).op = s.op := rfl
@[simp] theorem waitEnter_suspended (t : Level) (s : State) : (waitEnter t s).suspended = s.suspended := rfl
@[simp] theorem waitEnter_syn (t : Level) (s : State) : (waitEnter t s).syn = s.syn := rfl
@[simp] theorem waitEnter_rxStream (t : Level) (s : State) : (waitEnter t s).rxStream = s.rxStream := rfl
@[simp] theorem waitEnter_diagLog (t : Level) (s : State) : (waitEnter t s).diagLog = s.diagLog := rfl
@[simp] theorem waitEnter_resultStream (t : Level) (s : State) : (waitEnter t s).resultStream = s.resultStream := rfl
@[simp] theorem waitEnter_inputs (t : Level) (s : State) : (waitEnter t s).inputs = s.inputs := rfl
@[simp] theorem waitEnter_draws (t : Level) (s : State) : (waitEnter t s).draws = s.draws := rfl
@[simp] theorem waitEnter_choices (t : Level) (s : State) : (waitEnter t s).choices = s.choices := rfl

/-! ### `delayEnter` -/

@[simp] theorem delayEnter_cfg (s : State) : (delayEnter s).cfg = s.cfg := rfl
@[simp] theorem delayEnter_link (s : State) : (delayEnter s).link = s.link := rfl
@[simp] theorem delayEnter_configured (s : State) : (delayEnter s).configured = s.configured := rfl
@[simp] theorem delayEnter_frame (s : State) : (delayEnter s).frame = s.frame := rfl
@[simp] theorem delayEnter_gate (s : State) : (delayEnter s).gate = s.gate := rfl
@[simp] theorem delayEnter_edgePending (s : State) : (delayEnter s).edgePending = s.edgePending := rfl
@[simp] theorem delayEnter_clkPad (s : State) : (delayEnter s).clkPad = s.clkPad := rfl
@[simp] theorem delayEnter_dataPad (s : State) : (delayEnter s).dataPad = s.dataPad := rfl
@[simp] theorem delayEnter_clkDevLow (s : State) : (delayEnter s).clkDevLow = s.clkDevLow := rfl
@[simp] theorem delayEnter_dataDevLow (s : State) : (delayEnter s).dataDevLow = s.dataDevLow := rfl
@[simp] theorem delayEnter_inTxn (s : State) : (delayEnter s).inTxn = s.inTxn := rfl
@[simp] theorem delayEnter_inHandler (s : State) : (delayEnter s).inHandler = s.inHandler := rfl
@[simp] theorem delayEnter_txn (s : State) : (delayEnter s).txn = s.txn := rfl
@[simp] theorem delayEnter_wb (s : State) : (delayEnter s).wb = s.wb := rfl
@[simp] theorem delayEnter_rb (s : State) : (delayEnter s).rb = s.rb := rfl
@[simp] theorem delayEnter_waitT0 (s : State) : (delayEnter s).waitT0 = s.now := rfl
@[simp] theorem delayEnter_now (s : State) : (delayEnter s).now = s.now := rfl
@[simp] theorem delayEnter_seq (s : State) : (delayEnter s).seq = s.seq := rfl
@[simp] theorem delayEnter_op (s : State) : (delayEnter s).op = s.op := rfl
@[simp] theorem delayEnter_suspended (s : State) : (delayEnter s).suspended = s.suspended := rfl
@[simp] theorem delayEnter_syn (s : State) : (delayEnter s).syn = s.syn := rfl
@[simp] theorem delayEnter_rxStream (s : State) : (delayEnter s).rxStream = s.rxStream := rfl
@[simp] theorem delayEnter_diagLog (s : State) : (delayEnter s).diagLog = s.diagLog := rfl
@[simp] theorem delayEnter_resultStream (s : State) : (delayEnter s).resultStream = s.resultStream := rfl
@[simp] theorem delayEnter_inputs (s : State) : (delayEnter s).inputs = s.inputs := rfl
@[simp] theorem delayEnter_draws (s : State) : (delayEnter s).draws = s.draws := rfl
@[simp] theorem delayEnter_choices (s : State) : (delayEnter s).choices = s.choices := rfl

/-! ### `enterHandler` -/

@[simp] theorem enterHandler_cfg (s : State) : (enterHandler s).cfg = s.cfg := rfl
@[simp] theorem enterHandler_link (s : State) : (enterHandler s).link = s.link := rfl
@[simp] theorem enterHandler_configured (s : State) : (enterHandler s).configured = s.configured := rfl
@[simp] theorem enterHandler_frame (s : State) : (enterHandler s).frame = s.frame := rfl
@[simp] theorem enterHandler_gate (s : State) : (enterHandler s).gate = s.gate := rfl
@[simp] theorem enterHandler_edgePending (s : State) : (enterHandler s).edgePending = false := rfl
@[simp] theorem enterHandler_clkPad (s : State) : (enterHandler s).clkPad = s.clkPad := rfl
@[simp] theorem enterHandler_dataPad (s : State) : (enterHandler s).dataPad = s.dataPad := rfl
@[simp] theorem enterHandler_clkDevLow (s : State) : (enterHandler s).clkDevLow = s.clkDevLow := rfl
@[simp] theorem enterHandler_dataDevLow (s : State) : (enterHandler s).dataDevLow = s.dataDevLow := rfl
@[simp] theorem enterHandler_inTxn (s : State) : (enterHandler s).inTxn = s.inTxn := rfl
@[simp] theorem enterHandler_inHandler (s : State) : (enterHandler s).inHandler = true := rfl
@[simp] theorem enterHandler_txn (s : State) : (enterHandler s).txn = s.txn := rfl
@[simp] theorem enterHandler_wb (s : State) : (enterHandler s).wb = s.wb := rfl
@[simp] theorem enterHandler_rb (s : State) : (enterHandler s).rb = s.rb := rfl
@[simp] theorem enterHandler_waitT0 (s : State) : (enterHandler s).waitT0 = s.waitT0 := rfl
@[simp] theorem enterHandler_now (s : State) : (enterHandler s).now = s.now := rfl
@[simp] theorem enterHandler_seq (s : State) : (enterHandler s).seq = s.seq := rfl
@[simp] theorem enterHandler_op (s : State) : (enterHandler s).op = s.op := rfl
@[simp] theorem enterHandler_suspended (s : State) : (enterHandler s).suspended = s.suspended := rfl
@[simp] theorem enterHandler_syn (s : State) : (enterHandler s).syn = s.syn := rfl
@[simp] theorem enterHandler_rxStream (s : State) : (enterHandler s).rxStream = s.rxStream := rfl
@[simp] theorem enterHandler_diagLog (s : State) : (enterHandler s).diagLog = s.diagLog := rfl
@[simp] theorem enterHandler_resultStream (s : State) : (enterHandler s).resultStream = s.resultStream := rfl
@[simp] theorem enterHandler_inputs (s : State) : (enterHandler s).inputs = s.inputs := rfl
@[simp] theorem enterHandler_draws (s : State) : (enterHandler s).draws = s.draws := rfl
@[simp] theorem enterHandler_choices (s : State) : (enterHandler s).choices = s.choices := rfl

/-! ### `leaveHandler` -/

@[simp] theorem leaveHandler_cfg (s : State) : (leaveHandler s).cfg = s.cfg := rfl
@[simp] theorem leaveHandler_link (s : State) : (leaveHandler s).link = s.link := rfl
@[simp] theorem leaveHandler_configured (s : State) : (leaveHandler s).configured = s.configured := rfl
@[simp] theorem leaveHandler_frame (s : State) : (leaveHandler s).frame = s.frame := rfl
@[simp] theorem leaveHandler_gate (s : State) : (leaveHandler s).gate = s.gate := rfl
@[simp] theorem leaveHandler_edgePending (s : State) : (leaveHandler s).edgePending = s.edgePending := rfl
@[simp] theorem leaveHandler_clkPad (s : State) : (leaveHandler s).clkPad = s.clkPad := rfl
@[simp] theorem leaveHandler_dataPad (s : State) : (leaveHandler s).dataPad = s.dataPad := rfl
@[simp] theorem leaveHandler_clkDevLow (s : State) : (leaveHandler s).clkDevLow = s.clkDevLow := rfl
@[simp] theorem leaveHandler_dataDevLow (s : State) : (leaveHandler s).dataDevLow = s.dataDevLow := rfl
@[simp] theorem leaveHandler_inTxn (s : State) : (leaveHandler s).inTxn = s.inTxn := rfl
@[simp] theorem leaveHandler_inHandler (s : State) : (leaveHandler s).inHandler = false := rfl
@[simp] theorem leaveHandler_txn (s : State) : (leaveHandler s).txn = s.txn := rfl
@[simp] theorem leaveHandler_wb (s : State) : (leaveHandler s).wb = s.wb := rfl
@[simp] theorem leaveHandler_rb (s : State) : (leaveHandler s).rb = s.rb := rfl
@[simp] theorem leaveHandler_waitT0 (s : State) : (leaveHandler s).waitT0 = s.waitT0 := rfl
@[simp] theorem leaveHandler_now (s : State) : (leaveHandler s).now = s.now := rfl
@[simp] theorem leaveHandler_seq (s : State) : (leaveHandler s).seq = s.seq := rfl
@[simp] theorem leaveHandler_op (s : State) : (leaveHandler s).op = s.op := rfl
@[simp] theorem leaveHandler_suspended (s : State) : (leaveHandler s).suspended = s.suspended := rfl
@[simp] theorem leaveHandler_syn (s : State) : (leaveHandler s).syn = s.syn := rfl
@[simp] theorem leaveHandler_rxStream (s : State) : (leaveHandler s).rxStream = s.rxStream := rfl
@[simp] theorem leaveHandler_diagLog (s : State) : (leaveHandler s).diagLog = s.diagLog := rfl
@[simp] theorem leaveHandler_resultStream (s : State) : (leaveHandler s).resultStream = s.resultStream := rfl
@[simp] theorem leaveHandler_inputs (s : State) : (leaveHandler s).inputs = s.inputs := rfl
@[simp] theorem leaveHandler_draws (s : State) : (leaveHandler s).draws = s.draws := rfl
@[simp] theorem leaveHandler_choices (s : State) : (leaveHandler s).choices = s.choices := rfl

/-! ### `latchEdge` -/

@[simp] theorem latchEdge_cfg (s0 s : State) : (latchEdge s0 s).cfg = s.cfg := rfl
@[simp] theorem latchEdge_link (s0 s : State) : (latchEdge s0 s).link = s.link := rfl
@[simp] theorem latchEdge_configured (s0 s : State) : (latchEdge s0 s).configured = s.configured := rfl
@[simp] theorem latchEdge_frame (s0 s : State) : (latchEdge s0 s).frame = s.frame := rfl
@[simp] theorem latchEdge_gate (s0 s : State) : (latchEdge s0 s).gate = s.gate := rfl
@[simp] theorem latchEdge_edgePending (s0 s : State) : (latchEdge s0 s).edgePending = (s.edgePending || (clkFell s0 s && s.latches)) := rfl
@[simp] theorem latchEdge_clkPad (s0 s : State) : (latchEdge s0 s).clkPad = s.clkPad := rfl
@[simp] theorem latchEdge_dataPad (s0 s : State) : (latchEdge s0 s).dataPad = s.dataPad := rfl
@[simp] theorem latchEdge_clkDevLow (s0 s : State) : (latchEdge s0 s).clkDevLow = s.clkDevLow := rfl
@[simp] theorem latchEdge_dataDevLow (s0 s : State) : (latchEdge s0 s).dataDevLow = s.dataDevLow := rfl
@[simp] theorem latchEdge_inTxn (s0 s : State) : (latchEdge s0 s).inTxn = s.inTxn := rfl
@[simp] theorem latchEdge_inHandler (s0 s : State) : (latchEdge s0 s).inHandler = s.inHandler := rfl
@[simp] theorem latchEdge_txn (s0 s : State) : (latchEdge s0 s).txn = s.txn := rfl
@[simp] theorem latchEdge_wb (s0 s : State) : (latchEdge s0 s).wb = s.wb := rfl
@[simp] theorem latchEdge_rb (s0 s : State) : (latchEdge s0 s).rb = s.rb := rfl
@[simp] theorem latchEdge_waitT0 (s0 s : State) : (latchEdge s0 s).waitT0 = s.waitT0 := rfl
@[simp] theorem latchEdge_now (s0 s : State) : (latchEdge s0 s).now = s.now := rfl
@[simp] theorem latchEdge_seq (s0 s : State) : (latchEdge s0 s).seq = s.seq := rfl
@[simp] theorem latchEdge_op (s0 s : State) : (latchEdge s0 s).op = s.op := rfl
@[simp] theorem latchEdge_suspended (s0 s : State) : (latchEdge s0 s).suspended = s.suspended := rfl
@[simp] theorem latchEdge_syn (s0 s : State) : (latchEdge s0 s).syn = s.syn := rfl
@[simp] theorem latchEdge_rxStream (s0 s : State) : (latchEdge s0 s).rxStream = s.rxStream := rfl
@[simp] theorem latchEdge_diagLog (s0 s : State) : (latchEdge s0 s).diagLog = s.diagLog := rfl
@[simp] theorem latchEdge_resultStream (s0 s : State) : (latchEdge s0 s).resultStream = s.resultStream := rfl
@[simp] theorem latchEdge_inputs (s0 s : State) : (latchEdge s0 s).inputs = s.inputs := rfl
@[simp] theorem latchEdge_draws (s0 s : State) : (latchEdge s0 s).draws = s.draws + 2 := rfl
@[simp] theorem latchEdge_choices (s0 s : State) : (latchEdge s0 s).choices = s.choices := rfl

/-! ### `ctBegin` -/

@[simp] theorem ctBegin_cfg (it : Item) (s : State) : (ctBegin it s).cfg = s.cfg := rfl
@[simp] theorem ctBegin_link (it : Item) (s : State) : (ctBegin it s).link = s.link := rfl
@[simp] theorem ctBegin_configured (it : Item) (s : State) : (ctBegin it s).configured = s.configured := rfl
@[simp] theorem ctBegin_frame (it : Item) (s : State) : (ctBegin it s).frame = Frame.idle := rfl
@[simp] theorem ctBegin_gate (it : Item) (s : State) : (ctBegin it s).gate = false := rfl
@[simp] theorem ctBegin_edgePending (it : Item) (s : State) : (ctBegin it s).edgePending = (s.edgePending && s.cfg.edgeLatchWhileMasked) := rfl
@[simp] theorem ctBegin_clkPad (it : Item) (s : State) : (ctBegin it s).clkPad = s.clkPad := rfl
@[simp] theorem ctBegin_dataPad (it : Item) (s : State) : (ctBegin it s).dataPad = s.dataPad := rfl
@[simp] theorem ctBegin_clkDevLow (it : Item) (s : State) : (ctBegin it s).clkDevLow = s.clkDevLow := rfl
@[simp] theorem ctBegin_dataDevLow (it : Item) (s : State) : (ctBegin it s).dataDevLow = s.dataDevLow := rfl
@[simp] theorem ctBegin_inTxn (it : Item) (s : State) : (ctBegin it s).inTxn = true := rfl
@[simp] theorem ctBegin_inHandler (it : Item) (s : State) : (ctBegin it s).inHandler = s.inHandler := rfl
@[simp] theorem ctBegin_txn (it : Item) (s : State) : (ctBegin it s).txn = { desc := it.desc, args := it.args, results := [], ok := true } := rfl
@[simp] theorem ctBegin_wb (it : Item) (s : State) : (ctBegin it s).wb = s.wb := rfl
@[simp] theorem ctBegin_rb (it : Item) (s : State) : (ctBegin it s).rb = s.rb := rfl
@[simp] theorem ctBegin_waitT0 (it : Item) (s : State) : (ctBegin it s).waitT0 = s.waitT0 := rfl
@[simp] theorem ctBegin_now (it : Item) (s : State) : (ctBegin it s).now = s.now := rfl
@[simp] theorem ctBegin_seq (it : Item) (s : State) : (ctBegin it s).seq = .ctOpcode .rtsClk := rfl
@[simp] theorem ctBegin_op (it : Item) (s : State) : (ctBegin it s).op = { s.op with post := it.post } := rfl
@[simp] theorem ctBegin_suspended (it : Item) (s : State) : (ctBegin it s).suspended = s.suspended := rfl
@[simp] theorem ctBegin_syn (it : Item) (s : State) : (ctBegin it s).syn = s.syn := rfl
@[simp] theorem ctBegin_rxStream (it : Item) (s : State) : (ctBegin it s).rxStream = s.rxStream := rfl
@[simp] theorem ctBegin_diagLog (it : Item) (s : State) : (ctBegin it s).diagLog = s.diagLog := rfl
@[simp] theorem ctBegin_resultStream (it : Item) (s : State) : (ctBegin it s).resultStream = s.resultStream := rfl
@[simp] theorem ctBegin_inputs (it : Item) (s : State) : (ctBegin it s).inputs = s.inputs := rfl
@[simp] theorem ctBegin_draws (it : Item) (s : State) : (ctBegin it s).draws = s.draws := rfl
@[simp] theorem ctBegin_choices (it : Item) (s : State) : (ctBegin it s).choices = s.choices := rfl

/-! ### `sampled` -/

@[simp] theorem sampled_cfg (l : Line) (s : State) : (sampled l s).cfg = s.cfg := by cases l <;> rfl
@[simp] theorem sampled_link (l : Line) (s : State) : (sampled l s).link = s.link := by cases l <;> rfl
@[simp] theorem sampled_configured (l : Line) (s : State) : (sampled l s).configured = s.configured := by cases l <;> rfl
@[simp] theorem sampled_frame (l : Line) (s : State) : (sampled l s).frame = s.frame := by cases l <;> rfl
@[simp] theorem sampled_gate (l : Line) (s : State) : (sampled l s).gate = s.gate := by cases l <;> rfl
@[simp] theorem sampled_edgePending (l : Line) (s : State) : (sampled l s).edgePending = s.edgePending := by cases l <;> rfl
@[simp] theorem sampled_clkDevLow (l : Line) (s : State) : (sampled l s).clkDevLow = s.clkDevLow := by cases l <;> rfl
@[simp] theorem sampled_dataDevLow (l : Line) (s : State) : (sampled l s).dataDevLow = s.dataDevLow := by cases l <;> rfl
@[simp] theorem sampled_inTxn (l : Line) (s : State) : (sampled l s).inTxn = s.inTxn := by cases l <;> rfl
@[simp] theorem sampled_inHandler (l : Line) (s : State) : (sampled l s).inHandler = s.inHandler := by cases l <;> rfl
@[simp] theorem sampled_txn (l : Line) (s : State) : (sampled l s).txn = s.txn := by cases l <;> rfl
@[simp] theorem sampled_wb (l : Line) (s : State) : (sampled l s).wb = s.wb := by cases l <;> rfl
@[simp] theorem sampled_rb (l : Line) (s : State) : (sampled l s).rb = s.rb := by cases l <;> rfl
@[simp] theorem sampled_waitT0 (l : Line) (s : State) : (sampled l s).waitT0 = s.waitT0 := by cases l <;> rfl
@[simp] theorem sampled_now (l : Line) (s : State) : (sampled l s).now = s.now := by cases l <;> rfl
@[simp] theorem sampled_seq (l : Line) (s : State) : (sampled l s).seq = s.seq := by cases l <;> rfl
@[simp] theorem sampled_op (l : Line) (s : State) : (sampled l s).op = s.op := by cases l <;> rfl
@[simp] theorem sampled_suspended (l : Line) (s : State) : (sampled l s).suspended = s.suspended := by cases l <;> rfl
@[simp] theorem sampled_syn (l : Line) (s : State) : (sampled l s).syn = s.syn := by cases l <;> rfl
@[simp] theorem sampled_rxStream (l : Line) (s : State) : (sampled l s).rxStream = s.rxStream := by cases l <;> rfl
@[simp] theorem sampled_diagLog (l : Line) (s : State) : (sampled l s).diagLog = s.diagLog := by cases l <;> rfl
@[simp] theorem sampled_resultStream (l : Line) (s : State) : (sampled l s).resultStream = s.resultStream := by cases l <;> rfl
@[simp] theorem sampled_inputs (l : Line) (s : State) : (sampled l s).inputs = s.inputs := by cases l <;> rfl
@[simp] theorem sampled_draws (l : Line) (s : State) : (sampled l s).draws = s.draws + 1 := by cases l <;> rfl
@[simp] theorem sampled_choices (l : Line) (s : State) : (sampled l s).choices = s.choices := by cases l <;> rfl

/-! ### `suspend` -/

@[simp] theorem suspend_cfg (s : State) : (suspend s).cfg = s.cfg := by unfold suspend; split <;> rfl
@[simp] theorem suspend_link (s : State) : (suspend s).link = s.link := by unfold suspend; split <;> rfl
@[simp] theorem suspend_configured (s : State) : (suspend s).configured = s.configured := by unfold suspend; split <;> rfl
@[simp] theorem suspend_frame (s : State) : (suspend s).frame = s.frame := by unfold suspend; split <;> rfl
@[simp] theorem suspend_gate (s : State) : (suspend s).gate = s.gate := by unfold suspend; split <;> rfl
@[simp] theorem suspend_edgePending (s : State) : (suspend s).edgePending = s.edgePending := by unfold suspend; split <;> rfl
@[simp] theorem suspend_clkPad (s : State) : (suspend s).clkPad = s.clkPad := by unfold suspend; split <;> rfl
@[simp] theorem suspend_dataPad (s : State) : (suspend s).dataPad = s.dataPad := by unfold suspend; split <;> rfl
@[simp] theorem suspend_clkDevLow (s : State) : (suspend s).clkDevLow = s.clkDevLow := by unfold suspend; split <;> rfl
@[simp] theorem suspend_dataDevLow (s : State) : (suspend s).dataDevLow = s.dataDevLow := by unfold suspend; split <;> rfl
@[simp] theorem suspend_inTxn (s : State) : (suspend s).inTxn = s.inTxn := by unfold suspend; split <;> rfl
@[simp] theorem suspend_inHandler (s : State) : (suspend s).inHandler = s.inHandler := by unfold suspend; split <;> rfl
@[simp] theorem suspend_txn (s : State) : (suspend s).txn = s.txn := by unfold suspend; split <;> rfl
@[simp] theorem suspend_wb (s : State) : (suspend s).wb = s.wb := by unfold suspend; split <;> rfl
@[simp] theorem suspend_rb (s : State) : (suspend s).rb = s.rb := by unfold suspend; split <;> rfl
@[simp] theorem suspend_waitT0 (s : State) : (suspend s).waitT0 = s.waitT0 := by unfold suspend; split <;> rfl
@[simp] theorem suspend_now (s : State) : (suspend s).now = s.now := by unfold suspend; split <;> rfl
@[simp] theorem suspend_seq (s : State) : (suspend s).seq = s.seq := by unfold suspend; split <;> rfl
@[simp] theorem suspend_op (s : State) : (suspend s).op = s.op := by unfold suspend; split <;> rfl
@[simp] theorem suspend_syn (s : State) : (suspend s).syn = s.syn := by unfold suspend; split <;> rfl
@[simp] theorem suspend_rxStream (s : State) : (suspend s).rxStream = s.rxStream := by unfold suspend; split <;> rfl
@[simp] theorem suspend_diagLog (s : State) : (suspend s).diagLog = s.diagLog := by unfold suspend; split <;> rfl
@[simp] theorem suspend_resultStream (s : State) : (suspend s).resultStream = s.resultStream := by unfold suspend; split <;> rfl
@[simp] theorem suspend_inputs (s : State) : (suspend s).inputs = s.inputs := by unfold suspend; split <;> rfl
@[simp] theorem suspend_draws (s : State) : (suspend s).draws = s.draws := by unfold suspend; split <;> rfl
@[simp] theorem suspend_choices (s : State) : (suspend s).choices = s.choices := by unfold suspend; split <;> rfl

/-! ### `resume` -/

@[simp] theorem resume_cfg (s : State) : (resume s).cfg = s.cfg := by unfold resume; split <;> rfl
@[simp] theorem resume_link (s : State) : (resume s).link = s.link := by unfold resume; split <;> rfl
@[simp] theorem resume_configured (s : State) : (resume s).configured = s.configured := by unfold resume; split <;> rfl
@[simp] theorem resume_frame (s : State) : (resume s).frame = s.frame := by unfold resume; split <;> rfl
@[simp] theorem resume_gate (s : State) : (resume s).gate = s.gate := by unfold resume; split <;> rfl
@[simp] theorem resume_edgePending (s : State) : (resume s).edgePending = s.edgePending := by unfold resume; split <;> rfl
@[simp] theorem resume_clkPad (s : State) : (resume s).clkPad = s.clkPad := by unfold resume; split <;> rfl
@[simp] theorem resume_dataPad (s : State) : (resume s).dataPad = s.dataPad := by unfold resume; split <;> rfl
@[simp] theorem resume_clkDevLow (s : State) : (resume s).clkDevLow = s.clkDevLow := by unfold resume; split <;> rfl
@[simp] theorem resume_dataDevLow (s : State) : (resume s).dataDevLow = s.dataDevLow := by unfold resume; split <;> rfl
@[simp] theorem resume_inTxn (s : State) : (resume s).inTxn = s.inTxn := by unfold resume; split <;> rfl
@[simp] theorem resume_inHandler (s : State) : (resume s).inHandler = s.inHandler := by unfold resume; split <;> rfl
@[simp] theorem resume_txn (s : State) : (resume s).txn = s.txn := by unfold resume; split <;> rfl
@[simp] theorem resume_wb (s : State) : (resume s).wb = s.wb := by unfold resume; split <;> rfl
@[simp] theorem resume_rb (s : State) : (resume s).rb = s.rb := by unfold resume; split <;> rfl
@[simp] theorem resume_waitT0 (s : State) : (resume s).waitT0 = s.waitT0 := by unfold resume; split <;> rfl
@[simp] theorem resume_now (s : State) : (resume s).now = s.now := by unfold resume; split <;> rfl
@[simp] theorem resume_seq (s : State) : (resume s).seq = s.seq := by unfold resume; split <;> rfl
@[simp] theorem resume_syn (s : State) : (resume s).syn = s.syn := by unfold resume; split <;> rfl
@[simp] theorem resume_rxStream (s : State) : (resume s).rxStream = s.rxStream := by unfold resume; split <;> rfl
@[simp] theorem resume_diagLog (s : State) : (resume s).diagLog = s.diagLog := by unfold resume; split <;> rfl
@[simp] theorem resume_resultStream (s : State) : (resume s).resultStream = s.resultStream := by unfold resume; split <;> rfl
@[simp] theorem resume_inputs (s : State) : (resume s).inputs = s.inputs := by unfold resume; split <;> rfl
@[simp] theorem resume_draws (s : State) : (resume s).draws = s.draws := by unfold resume; split <;> rfl
@[simp] theorem resume_choices (s : State) : (resume s).choices = s.choices := by unfold resume; split <;> rfl

/-! ### `returnResult` -/

@[simp] theorem returnResult_cfg (s : State) : (returnResult s).cfg = s.cfg := by unfold returnResult; split <;> simp
@[simp] theorem returnResult_link (s : State) : (returnResult s).link = s.link := by unfold returnResult; split <;> simp
@[simp] theorem returnResult_configured (s : State) : (returnResult s).configured = s.configured := by unfold returnResult; split <;> simp
@[simp] theorem returnResult_frame (s : State) : (returnResult s).frame = s.frame := by unfold returnResult; split <;> simp
@[simp] theorem returnResult_gate (s : State) : (returnResult s).gate = s.gate := by unfold returnResult; split <;> simp
@[simp] theorem returnResult_edgePending (s : State) : (returnResult s).edgePending = s.edgePending := by unfold returnResult; split <;> simp
@[simp] theorem returnResult_clkPad (s : State) : (returnResult s).clkPad = s.clkPad := by unfold returnResult; split <;> simp
@[simp] theorem returnResult_dataPad (s : State) : (returnResult s).dataPad = s.dataPad := by unfold returnResult; split <;> simp
@[simp] theorem returnResult_clkDevLow (s : State) : (returnResult s).clkDevLow = s.clkDevLow := by unfold returnResult; split <;> simp
@[simp] theorem returnResult_dataDevLow (s : State) : (returnResult s).dataDevLow = s.dataDevLow := by unfold returnResult; split <;> simp
@[simp] theorem returnResult_inTxn (s : State) : (returnResult s).inTxn = s.inTxn := by unfold returnResult; split <;> simp
@[simp] theorem returnResult_inHandler (s : State) : (returnResult s).inHandler = s.inHandler := by unfold returnResult; split <;> simp
@[simp] theorem returnResult_txn (s : State) : (returnResult s).txn = s.txn := by unfold returnResult; split <;> simp
@[simp] theorem returnResult_wb (s : State) : (returnResult s).wb = s.wb := by unfold returnResult; split <;> simp
@[simp] theorem returnResult_rb (s : State) : (returnResult s).rb = s.rb := by unfold returnResult; split <;> simp
@[simp] theorem returnResult_waitT0 (s : State) : (returnResult s).waitT0 = s.waitT0 := by unfold returnResult; split <;> simp
@[simp] theorem returnResult_now (s : State) : (returnResult s).now = s.now := by unfold returnResult; split <;> simp
@[simp] theorem returnResult_seq (s : State) : (returnResult s).seq = s.seq := by unfold returnResult; split <;> simp
@[simp] theorem returnResult_syn (s : State) : (returnResult s).syn = s.syn := by unfold returnResult; split <;> simp
@[simp] theorem returnResult_rxStream (s : State) : (returnResult s).rxStream = s.rxStream := by unfold returnResult; split <;> simp
@[simp] theorem returnResult_diagLog (s : State) : (returnResult s).diagLog = s.diagLog := by unfold returnResult; split <;> simp
@[simp] theorem returnResult_inputs (s : State) : (returnResult s).inputs = s.inputs := by unfold returnResult; split <;> simp
@[simp] theorem returnResult_draws (s : State) : (returnResult s).draws = s.draws := by unfold returnResult; split <;> simp
@[simp] theorem returnResult_choices (s : State) : (returnResult s).choices = s.choices := by unfold returnResult; split <;> simp

/-! ### `readStart` -/

@[simp] theorem readStart_cfg (s : State) : (readStart s).cfg = s.cfg := rfl
@[simp] theorem readStart_link (s : State) : (readStart s).link = s.link := rfl
@[simp] theorem readStart_configured (s : State) : (readStart s).configured = s.configured := rfl
@[simp] theorem readStart_frame (s : State) : (readStart s).frame = s.frame := rfl
@[simp] theorem readStart_gate (s : State) : (readStart s).gate = s.gate := rfl
@[simp] theorem readStart_edgePending (s : State) : (readStart s).edgePending = s.edgePending := rfl
@[simp] theorem readStart_clkPad (s : State) : (readStart s).clkPad = s.clkPad := rfl
@[simp] theorem readStart_dataPad (s : State) : (readStart s).dataPad = s.dataPad := rfl
@[simp] theorem readStart_clkDevLow (s : State) : (readStart s).clkDevLow = s.clkDevLow := rfl
@[simp] theorem readStart_dataDevLow (s : State) : (readStart s).dataDevLow = s.dataDevLow := rfl
@[simp] theorem readStart_inTxn (s : State) : (readStart s).inTxn = s.inTxn := rfl
@[simp] theorem readStart_inHandler (s : State) : (readStart s).inHandler = s.inHandler := rfl
@[simp] theorem readStart_txn (s : State) : (readStart s).txn = s.txn := rfl
@[simp] theorem readStart_wb (s : State) : (readStart s).wb = s.wb := rfl
@[simp] theorem readStart_rb (s : State) : (readStart s).rb = { s.rb with byte := 0x00#8, parity := false } := rfl
@[simp] theorem readStart_waitT0 (s : State) : (readStart s).waitT0 = s.waitT0 := rfl
@[simp] theorem readStart_now (s : State) : (readStart s).now = s.now := rfl
@[simp] theorem readStart_seq (s : State) : (readStart s).seq = s.seq := rfl
@[simp] theorem readStart_op (s : State) : (readStart s).op = s.op := rfl
@[simp] theorem readStart_suspended (s : State) : (readStart s).suspended = s.suspended := rfl
@[simp] theorem readStart_syn (s : State) : (readStart s).syn = s.syn := rfl
@[simp] theorem readStart_rxStream (s : State) : (readStart s).rxStream = s.rxStream := rfl
@[simp] theorem readStart_diagLog (s : State) : (readStart s).diagLog = s.diagLog := rfl
@[simp] theorem readStart_resultStream (s : State) : (readStart s).resultStream = s.resultStream := rfl
@[simp] theorem readStart_inputs (s : State) : (readStart s).inputs = s.inputs := rfl
@[simp] theorem readStart_draws (s : State) : (readStart s).draws = s.draws := rfl
@[simp] theorem readStart_choices (s : State) : (readStart s).choices = s.choices := rfl

/-! ### `writeStart` -/

@[simp] theorem writeStart_cfg (b : Byte) (s : State) : (writeStart b s).cfg = s.cfg := rfl
@[simp] theorem writeStart_link (b : Byte) (s : State) : (writeStart b s).link = s.link := rfl
@[simp] theorem writeStart_configured (b : Byte) (s : State) : (writeStart b s).configured = s.configured := rfl
@[simp] theorem writeStart_frame (b : Byte) (s : State) : (writeStart b s).frame = s.frame := rfl
@[simp] theorem writeStart_gate (b : Byte) (s : State) : (writeStart b s).gate = s.gate := rfl
@[simp] theorem writeStart_edgePending (b : Byte) (s : State) : (writeStart b s).edgePending = s.edgePending := rfl
@[simp] theorem writeStart_clkPad (b : Byte) (s : State) : (writeStart b s).clkPad = s.clkPad := rfl
@[simp] theorem writeStart_dataPad (b : Byte) (s : State) : (writeStart b s).dataPad = s.dataPad := rfl
@[simp] theorem writeStart_clkDevLow (b : Byte) (s : State) : (writeStart b s).clkDevLow = s.clkDevLow := rfl
@[simp] theorem writeStart_dataDevLow (b : Byte) (s : State) : (writeStart b s).dataDevLow = s.dataDevLow := rfl
@[simp] theorem writeStart_inTxn (b : Byte) (s : State) : (writeStart b s).inTxn = s.inTxn := rfl
@[simp] theorem writeStart_inHandler (b : Byte) (s : State) : (writeStart b s).inHandler = s.inHandler := rfl
@[simp] theorem writeStart_txn (b : Byte) (s : State) : (writeStart b s).txn = s.txn := rfl
@[simp] theorem writeStart_wb (b : Byte) (s : State) : (writeStart b s).wb = { s.wb with byte := b, parity := true } := rfl
@[simp] theorem writeStart_rb (b : Byte) (s : State) : (writeStart b s).rb = s.rb := rfl
@[simp] theorem writeStart_waitT0 (b : Byte) (s : State) : (writeStart b s).waitT0 = s.waitT0 := rfl
@[simp] theorem writeStart_now (b : Byte) (s : State) : (writeStart b s).now = s.now := rfl
@[simp] theorem writeStart_seq (b : Byte) (s : State) : (writeStart b s).seq = s.seq := rfl
@[simp] theorem writeStart_op (b : Byte) (s : State) : (writeStart b s).op = s.op := rfl
@[simp] theorem writeStart_suspended (b : Byte) (s : State) : (writeStart b s).suspended = s.suspended := rfl
@[simp] theorem writeStart_syn (b : Byte) (s : State) : (writeStart b s).syn = s.syn := rfl
@[simp] theorem writeStart_rxStream (b : Byte) (s : State) : (writeStart b s).rxStream = s.rxStream := rfl
@[simp] theorem writeStart_diagLog (b : Byte) (s : State) : (writeStart b s).diagLog = s.diagLog := rfl
@[simp] theorem writeStart_resultStream (b : Byte) (s : State) : (writeStart b s).resultStream = s.resultStream := rfl
@[simp] theorem writeStart_inputs (b : Byte) (s : State) : (writeStart b s).inputs = s.inputs := rfl
@[simp] theorem writeStart_draws (b : Byte) (s : State) : (writeStart b s).draws = s.draws := rfl
@[simp] theorem writeStart_choices (b : Byte) (s : State) : (writeStart b s).choices = s.choices := rfl

/-! ### `advanceTime` -/

@[simp] theorem advanceTime_cfg (d : Time) (s : State) : (advanceTime d s).cfg = s.cfg := rfl
@[simp] theorem advanceTime_link (d : Time) (s : State) : (advanceTime d s).link = s.link := rfl
@[simp] theorem advanceTime_configured (d : Time) (s : State) : (advanceTime d s).configured = s.configured := rfl
@[simp] theorem advanceTime_frame (d : Time) (s : State) : (advanceTime d s).frame = s.frame := rfl
@[simp] theorem advanceTime_gate (d : Time) (s : State) : (advanceTime d s).gate = s.gate := rfl
@[simp] theorem advanceTime_edgePending (d : Time) (s : State) : (advanceTime d s).edgePending = s.edgePending := rfl
@[simp] theorem advanceTime_clkPad (d : Time) (s : State) : (advanceTime d s).clkPad = s.clkPad := rfl
@[simp] theorem advanceTime_dataPad (d : Time) (s : State) : (advanceTime d s).dataPad = s.dataPad := rfl
@[simp] theorem advanceTime_clkDevLow (d : Time) (s : State) : (advanceTime d s).clkDevLow = s.clkDevLow := rfl
@[simp] theorem advanceTime_dataDevLow (d : Time) (s : State) : (advanceTime d s).dataDevLow = s.dataDevLow := rfl
@[simp] theorem advanceTime_inTxn (d : Time) (s : State) : (advanceTime d s).inTxn = s.inTxn := rfl
@[simp] theorem advanceTime_inHandler (d : Time) (s : State) : (advanceTime d s).inHandler = s.inHandler := rfl
@[simp] theorem advanceTime_txn (d : Time) (s : State) : (advanceTime d s).txn = s.txn := rfl
@[simp] theorem advanceTime_wb (d : Time) (s : State) : (advanceTime d s).wb = s.wb := rfl
@[simp] theorem advanceTime_rb (d : Time) (s : State) : (advanceTime d s).rb = s.rb := rfl
@[simp] theorem advanceTime_waitT0 (d : Time) (s : State) : (advanceTime d s).waitT0 = s.waitT0 := rfl
@[simp] theorem advanceTime_now (d : Time) (s : State) : (advanceTime d s).now = s.now + d := rfl
@[simp] theorem advanceTime_seq (d : Time) (s : State) : (advanceTime d s).seq = s.seq := rfl
@[simp] theorem advanceTime_op (d : Time) (s : State) : (advanceTime d s).op = s.op := rfl
@[simp] theorem advanceTime_suspended (d : Time) (s : State) : (advanceTime d s).suspended = s.suspended := rfl
@[simp] theorem advanceTime_syn (d : Time) (s : State) : (advanceTime d s).syn = s.syn := rfl
@[simp] theorem advanceTime_rxStream (d : Time) (s : State) : (advanceTime d s).rxStream = s.rxStream := rfl
@[simp] theorem advanceTime_diagLog (d : Time) (s : State) : (advanceTime d s).diagLog = s.diagLog := rfl
@[simp] theorem advanceTime_resultStream (d : Time) (s : State) : (advanceTime d s).resultStream = s.resultStream := rfl
@[simp] theorem advanceTime_inputs (d : Time) (s : State) : (advanceTime d s).inputs = s.inputs := rfl
@[simp] theorem advanceTime_draws (d : Time) (s : State) : (advanceTime d s).draws = s.draws := rfl
@[simp] theorem advanceTime_choices (d : Time) (s : State) : (advanceTime d s).choices = s.choices := rfl

/-! ### `setUp` -/

@[simp] theorem setUp_cfg (c d : PinId) (k : CallbackId) (s : State) : (setUp c d k s).cfg = s.cfg := rfl
@[simp] theorem setUp_link (c d : PinId) (k : CallbackId) (s : State) : (setUp c d k s).link = { clockPin := c, dataPin := d, callback := k } := rfl
@[simp] theorem setUp_configured (c d : PinId) (k : CallbackId) (s : State) : (setUp c d k s).configured = true := rfl
@[simp] theorem setUp_frame (c d : PinId) (k : CallbackId) (s : State) : (setUp c d k s).frame = Frame.idle := rfl
@[simp] theorem setUp_gate (c d : PinId) (k : CallbackId) (s : State) : (setUp c d k s).gate = true := rfl
@[simp] theorem setUp_edgePending (c d : PinId) (k : CallbackId) (s : State) : (setUp c d k s).edgePending = false := rfl
@[simp] theorem setUp_clkPad (c d : PinId) (k : CallbackId) (s : State) : (setUp c d k s).clkPad = .inPullup := rfl
@[simp] theorem setUp_dataPad (c d : PinId) (k : CallbackId) (s : State) : (setUp c d k s).dataPad = .inPullup := rfl
@[simp] theorem setUp_clkDevLow (c d : PinId) (k : CallbackId) (s : State) : (setUp c d k s).clkDevLow = s.clkDevLow := rfl
@[simp] theorem setUp_dataDevLow (c d : PinId) (k : CallbackId) (s : State) : (setUp c d k s).dataDevLow = s.dataDevLow := rfl
@[simp] theorem setUp_inTxn (c d : PinId) (k : CallbackId) (s : State) : (setUp c d k s).inTxn = s.inTxn := rfl
@[simp] theorem setUp_inHandler (c d : PinId) (k : CallbackId) (s : State) : (setUp c d k s).inHandler = s.inHandler := rfl
@[simp] theorem setUp_txn (c d : PinId) (k : CallbackId) (s : State) : (setUp c d k s).txn = s.txn := rfl
@[simp] theorem setUp_wb (c d : PinId) (k : CallbackId) (s : State) : (setUp c d k s).wb = s.wb := rfl
@[simp] theorem setUp_rb (c d : PinId) (k : CallbackId) (s : State) : (setUp c d k s).rb = s.rb := rfl
@[simp] theorem setUp_waitT0 (c d : PinId) (k : CallbackId) (s : State) : (setUp c d k s).waitT0 = s.waitT0 := rfl
@[simp] theorem setUp_now (c d : PinId) (k : CallbackId) (s : State) : (setUp c d k s).now = s.now := rfl
@[simp] theorem setUp_seq (c d : PinId) (k : CallbackId) (s : State) : (setUp c d k s).seq = .idle := rfl
@[simp] theorem setUp_op (c d : PinId) (k : CallbackId) (s : State) : (setUp c d k s).op = s.op := rfl
@[simp] theorem setUp_suspended (c d : PinId) (k : CallbackId) (s : State) : (setUp c d k s).suspended = s.suspended := rfl
@[simp] theorem setUp_syn (c d : PinId) (k : CallbackId) (s : State) : (setUp c d k s).syn = s.syn := rfl
@[simp] theorem setUp_rxStream (c d : PinId) (k : CallbackId) (s : State) : (setUp c d k s).rxStream = s.rxStream := rfl
@[simp] theorem setUp_diagLog (c d : PinId) (k : CallbackId) (s : State) : (setUp c d k s).diagLog = s.diagLog := rfl
@[simp] theorem setUp_resultStream (c d : PinId) (k : CallbackId) (s : State) : (setUp c d k s).resultStream = s.resultStream := rfl
@[simp] theorem setUp_inputs (c d : PinId) (k : CallbackId) (s : State) : (setUp c d k s).inputs = s.inputs := rfl
@[simp] theorem setUp_draws (c d : PinId) (k : CallbackId) (s : State) : (setUp c d k s).draws = s.draws := rfl
@[simp] theorem setUp_choices (c d : PinId) (k : CallbackId) (s : State) : (setUp c d k s).choices = s.choices := rfl

/-! ### Pads and device ends, by line -/

@[simp] theorem pad_clk (s : State) : s.pad .clk = s.clkPad := rfl
@[simp] theorem pad_data (s : State) : s.pad .data = s.dataPad := rfl
@[simp] theorem devLow_clk (s : State) : s.devLow .clk = s.clkDevLow := rfl
@[simp] theorem devLow_data (s : State) : s.devLow .data = s.dataDevLow := rfl
@[simp] theorem setPad_clk_clkPad (s : State) (m : Pad) : (s.setPad .clk m).clkPad = m := rfl
@[simp] theorem setPad_clk_dataPad (s : State) (m : Pad) : (s.setPad .clk m).dataPad = s.dataPad := rfl
@[simp] theorem setPad_data_clkPad (s : State) (m : Pad) : (s.setPad .data m).clkPad = s.clkPad := rfl
@[simp] theorem setPad_data_dataPad (s : State) (m : Pad) : (s.setPad .data m).dataPad = m := rfl
@[simp] theorem setDevLow_clk_clkDevLow (s : State) (b : Bool) : (s.setDevLow .clk b).clkDevLow = b := rfl
@[simp] theorem setDevLow_clk_dataDevLow (s : State) (b : Bool) : (s.setDevLow .clk b).dataDevLow = s.dataDevLow := rfl
@[simp] theorem setDevLow_data_clkDevLow (s : State) (b : Bool) : (s.setDevLow .data b).clkDevLow = s.clkDevLow := rfl
@[simp] theorem setDevLow_data_dataDevLow (s : State) (b : Bool) : (s.setDevLow .data b).dataDevLow = b := rfl
@[simp] theorem driveLow_clk_clkPad (s : State) : (driveLow .clk s).clkPad = .driveLow := rfl
@[simp] theorem driveLow_clk_dataPad (s : State) : (driveLow .clk s).dataPad = s.dataPad := rfl
@[simp] theorem driveLow_data_clkPad (s : State) : (driveLow .data s).clkPad = s.clkPad := rfl
@[simp] theorem driveLow_data_dataPad (s : State) : (driveLow .data s).dataPad = .driveLow := rfl
@[simp] theorem releaseHigh_clk_clkPad (s : State) : (releaseHigh .clk s).clkPad = .inPullup := rfl
@[simp] theorem releaseHigh_clk_dataPad (s : State) : (releaseHigh .clk s).dataPad = s.dataPad := rfl
@[simp] theorem releaseHigh_data_clkPad (s : State) : (releaseHigh .data s).clkPad = s.clkPad := rfl
@[simp] theorem releaseHigh_data_dataPad (s : State) : (releaseHigh .data s).dataPad = .inPullup := rfl
@[simp] theorem sampled_clk_clkPad (s : State) : (sampled .clk s).clkPad = .inFloat := rfl
@[simp] theorem sampled_clk_dataPad (s : State) : (sampled .clk s).dataPad = s.dataPad := rfl
@[simp] theorem sampled_data_clkPad (s : State) : (sampled .data s).clkPad = s.clkPad := rfl
@[simp] theorem sampled_data_dataPad (s : State) : (sampled .data s).dataPad = .inFloat := rfl

/-- The composite of a gap is put aside on top of the others (log 13). -/
@[simp] theorem suspend_suspended (s : State) :
    (suspend s).suspended = if s.op.todo = [] then s.suspended else s.op :: s.suspended := by
  unfold suspend; cases s.op.todo <;> rfl

/-- The composite put aside last goes on, if there is one (log 13). -/
@[simp] theorem resume_op (s : State) : (resume s).op = s.suspended.headD s.op := by
  unfold resume; split <;> simp_all

/-- It is put aside no longer. -/
@[simp] theorem resume_suspended (s : State) : (resume s).suspended = s.suspended.tail := by
  unfold resume; split <;> simp_all

/-- What is running after a transaction's end: the same operation while something is left of it, else the composite put
aside last. -/
@[simp] theorem returnResult_op (s : State) :
    (returnResult s).op = if s.op.todo = [] then s.suspended.headD s.op else s.op := by
  unfold returnResult; cases s.op.todo <;> simp

/-- What is put aside after a transaction's end. -/
@[simp] theorem returnResult_suspended (s : State) :
    (returnResult s).suspended = if s.op.todo = [] then s.suspended.tail else s.suspended := by
  unfold returnResult; cases s.op.todo <;> simp

/-- A result is returned exactly when nothing is left of the operation (R20, R217). -/
@[simp] theorem returnResult_resultStream (s : State) :
    (returnResult s).resultStream =
      s.resultStream ++ if s.op.todo = [] then [{ ok := s.op.ok, bytes := s.txn.results }] else [] := by
  unfold returnResult; cases s.op.todo <;> simp

/-- A check that passes changes nothing. -/
@[simp] theorem check_true (e : ErrorName) (c : DiagContext) (i : DiagInfo) (s : State) : check true e c i s = s := rfl

/-- A check that fails is the report alone (R247). -/
@[simp] theorem check_false (e : ErrorName) (c : DiagContext) (i : DiagInfo) (s : State) :
    check false e c i s = report e c i s := rfl

end Sys2Proof.Machine
end

