-- ==== Sys2Proof/Laws/Ops.lean ====
section
/-! SUPPORT. One lemma per shared operation that says once what it can do; the provers cite these instead of
unfolding the operations. -/

namespace Sys2Proof.Machine

/-! ## Lines (spec/40_link.md R100-R108) -/

/-- A line that either end pulls low is `LOW` (R108). -/
theorem levelWith_low {d : Level} {l : Line} {s : State} (h : s.pad l = .driveLow ∨ s.devLow l = true) :
    levelWith d l s = LOW := by
  unfold levelWith
  rcases h with h | h <;> simp [h]

/-- A line that nobody pulls low and somebody pulls up is `HIGH` (R108). -/
theorem levelWith_high {d : Level} {l : Line} {s : State} (hd : s.pad l ≠ .driveLow) (hv : s.devLow l = false)
    (hu : s.pad l = .inPullup ∨ s.cfg.extPullup = true) : levelWith d l s = HIGH := by
  unfold levelWith
  rcases hu with h | h <;> simp [h, hv, hd]

/-- Reading `sample(L)` of a line that the device pulls low gives 0 (R102). -/
theorem sample_devLow {l : Line} {s : State} (h : s.devLow l = true) : sampleLevel l s = LOW := by
  refine levelWith_low (.inr ?_)
  cases l <;> simpa using h

/-- Reading `sample(L)` of a line that the device lets go gives 1 under an external pull-up (R102, R108). -/
theorem sample_released {l : Line} {s : State} (h : s.devLow l = false) (hu : s.cfg.extPullup = true) :
    sampleLevel l s = HIGH := by
  cases l <;> exact levelWith_high (by simp) (by simpa using h) (.inr (by simpa using hu))

/-- `sample` returns the complement of `dev_low` under an external pull-up (R102, R108). -/
theorem sample_fst_of_pullup {l : Line} {s : State} (hu : s.cfg.extPullup = true) :
    sampleLevel l s = !s.devLow l := by
  cases h : s.devLow l
  · simpa using sample_released h hu
  · simpa using sample_devLow h

/-! ## Waits and delays (R105, R107) -/

/-- A poll of `wait_clock` changes nothing but the count of draws and, on a timeout, the log (R105). -/
theorem waitPoll_cases (t : Level) (s : State) :
    waitPoll t s = s.nextDraw ∨
    (levelAt s.draws .clk s ≠ t ∧ s.cfg.tTimeout ≤ s.now - s.waitT0 ∧
      waitPoll t s = report .clockTimeout .sync (.level t) s.nextDraw) := by
  unfold waitPoll pollClock
  by_cases hv : levelAt s.draws .clk s = t
  · simp [hv]
  · by_cases hd : s.cfg.tTimeout ≤ s.now - s.waitT0 <;> simp [hv, hd]

/-- A poll that sees its level returns `OK` (R105). -/
theorem pollClock_seen {t : Level} {s : State} (h : levelAt s.draws .clk s = t) : pollClock t s = .ok := by
  simp [pollClock, h]

/-- A poll that sees its level reports nothing (R105). -/
theorem waitPoll_seen {t : Level} {s : State} (h : levelAt s.draws .clk s = t) : waitPoll t s = s.nextDraw := by
  simp [waitPoll, pollClock_seen h]

/-- A poll at or past the deadline leaves the wait, whatever it sees (R105, R106). -/
theorem pollClock_done {t : Level} {s : State} (h : s.cfg.tTimeout ≤ s.now - s.waitT0) :
    (pollClock t s).done = true := by
  unfold pollClock
  split <;> simp [Poll.done]

/-- A poll of `delay(d)` ends it exactly when `d` has passed (R107). -/
theorem pollDelay_done (d : Time) (s : State) : (pollDelay d s).done = decide (d ≤ s.now - s.waitT0) := by
  unfold pollDelay; split <;> simp_all [Poll.done]

/-! ## Deliveries (R130, R131) -/

/-- A delivery that answers a next state had a consumer that asked for nothing, and appended its byte (R130, R131). -/
theorem deliver_next {c : Option Request} {b : Byte} {s t : State} (h : deliver c b s = .next t) :
    c = none ∧ t = { s with rxStream := s.rxStream ++ [b] } := by
  cases c with
  | none => injection h with h; exact ⟨rfl, h.symm⟩
  | some r => cases h

/-! ## Reads of elements that may be unwritten (R42, R248) -/

/-- A written element's value is used. -/
@[simp] theorem readElement_some {α : Type} (v : α) (k : α → Result) : readElement (some v) k = k v := rfl

/-- An unwritten one is the fault. -/
@[simp] theorem readElement_none {α : Type} (k : α → Result) : readElement none k = .fault .noValue := rfl

/-- A read that answers a next state found a value, and what is done with the value answers that state. -/
theorem readElement_next {α : Type} {element : Option α} {k : α → Result} {t : State}
    (h : readElement element k = .next t) : ∃ v, element = some v ∧ k v = .next t := by
  cases element with
  | some v => exact ⟨v, rfl, h⟩
  | none => cases h

/-- A read that faults found nothing, or what is done with the value faults. -/
theorem readElement_fault {α : Type} {element : Option α} {k : α → Result} {f : Fault}
    (h : readElement element k = .fault f) : (element = none ∧ f = .noValue) ∨ ∃ v, element = some v ∧ k v = .fault f := by
  cases element with
  | some v => exact .inr ⟨v, rfl, h⟩
  | none => injection h with h; exact .inl ⟨rfl, h.symm⟩

/-! ## Admission and the start of an operation (R171, R165) -/

/-- An operation that is admitted runs. -/
theorem admit_ready {s : State} (h : s.Ready) (k : State → Result) : admission s k = k s := by
  simp [admission, h.configured, h.noTxn, h.noHandler]

/-- An admission that answers a next state met all its conditions. -/
theorem admit_next {s t : State} {k : State → Result} (h : admission s k = .next t) : s.Ready ∧ k s = .next t := by
  unfold admission at h
  split at h; · cases h
  split at h; · cases h
  split at h; · cases h
  next h1 h2 h3 =>
    refine ⟨⟨by simpa using h2, by simpa using h3, by simpa using h1⟩, h⟩

/-- What starting an operation does: its first transaction begins, and the rest wait (R165, R210-R215). -/
theorem startOperation_ready {s : State} (h : s.Ready) (it : Item) (rest : List Item) :
    startOperation (it :: rest) s =
      .next (ctBegin it { suspend s with op := { todo := rest, ok := true, post := .nothing } }) :=
  admit_ready h _

/-- A start that answers a next state met the conditions. -/
theorem startOperation_next {it : Item} {rest : List Item} {s t : State} (h : startOperation (it :: rest) s = .next t) :
    s.Ready ∧ t = ctBegin it { suspend s with op := { todo := rest, ok := true, post := .nothing } } := by
  obtain ⟨hr, hk⟩ := admit_next h
  injection hk with hk
  exact ⟨hr, hk.symm⟩

/-- A well-formed operation is the start of its expansion (R85, R190-R196, R210-R215). -/
theorem exec_eq_startOperation {i : Instr} (hi : i.WellFormed) (s : State) :
    exec i s = startOperation (expansion s.cfg i) s := by
  cases i with
  | command desc args =>
    have : args.length = sendCount desc := by simpa [Instr.WellFormed, Instr.wellFormed] using hi
    simp [exec, execCommand, expansion, this]
  | setscale11 => rfl
  | setrate r => rfl
  | enable => rfl
  | disable => rfl
  | resetBat => rfl
  | setres a => rfl
  | getinfo => rfl
  | encoded b => rfl
  | query c => rfl
  | setMode m r => rfl
  | modeProgram => rfl
  | synInit => rfl

/-- Every expansion has a first transaction. -/
theorem expansion_cons (c : Config.Params) (i : Instr) : ∃ it rest, expansion c i = it :: rest := by
  cases i <;> exact ⟨_, _, rfl⟩

/-! ## Steps -/

/-- A step with a next state is its event's effect, then the edge detector's look (R63, R109). -/
theorem step_next {s t : State} (h : step s = .next t) :
    ∃ u, applyEvent (nextEvent s).1 (nextEvent s).2 = .next u ∧ t = latchEdge (nextEvent s).2 u := by
  unfold step at h
  cases hu : applyEvent (nextEvent s).1 (nextEvent s).2 with
  | next u => rw [hu] at h; injection h with h; exact ⟨u, rfl, h.symm⟩
  | fault f => rw [hu] at h; cases h
  | refused r => rw [hu] at h; cases h

/-- Where the next event comes from: the state it is applied to differs from `s` in the model's own fields only. -/
theorem nextEvent_snd (s : State) :
    (∃ e rest, s.inputs = e :: rest ∧ nextEvent s = (e, { s with inputs := rest })) ∨
    (s.inputs = [] ∧ nextEvent s = (Config.freeEvent s.choices, { s with choices := s.choices + 1 })) := by
  unfold nextEvent
  split
  · next e rest h => exact .inl ⟨e, rest, h, rfl⟩
  · next h => exact .inr ⟨h, rfl⟩

/-- A step on a listed event (R63). -/
theorem step_listed {s : State} {e : Event} {rest : List Event} (h : s.inputs = e :: rest) :
    step s = observed { s with inputs := rest } (applyEvent e { s with inputs := rest }) := by
  simp [step, nextEvent, h]

end Sys2Proof.Machine
end

