-- ==== Sys2Proof/Laws/Engine.lean ====
section
/-! SUPPORT. What the primitives of `read_byte_sync` and `write_byte` leave alone, field by field, and what an engine step can do. -/

namespace Sys2Proof.Machine

/-! ### `waitPoll` looks only -/

@[simp] theorem waitPoll_cfg (t : Level) (s : State) : (waitPoll t s).cfg = s.cfg := by
  obtain h | ⟨-, -, h⟩ := waitPoll_cases t s <;> simp [h]
@[simp] theorem waitPoll_link (t : Level) (s : State) : (waitPoll t s).link = s.link := by
  obtain h | ⟨-, -, h⟩ := waitPoll_cases t s <;> simp [h]
@[simp] theorem waitPoll_configured (t : Level) (s : State) : (waitPoll t s).configured = s.configured := by
  obtain h | ⟨-, -, h⟩ := waitPoll_cases t s <;> simp [h]
@[simp] theorem waitPoll_frame (t : Level) (s : State) : (waitPoll t s).frame = s.frame := by
  obtain h | ⟨-, -, h⟩ := waitPoll_cases t s <;> simp [h]
@[simp] theorem waitPoll_gate (t : Level) (s : State) : (waitPoll t s).gate = s.gate := by
  obtain h | ⟨-, -, h⟩ := waitPoll_cases t s <;> simp [h]
@[simp] theorem waitPoll_edgePending (t : Level) (s : State) : (waitPoll t s).edgePending = s.edgePending := by
  obtain h | ⟨-, -, h⟩ := waitPoll_cases t s <;> simp [h]
@[simp] theorem waitPoll_clkDevLow (t : Level) (s : State) : (waitPoll t s).clkDevLow = s.clkDevLow := by
  obtain h | ⟨-, -, h⟩ := waitPoll_cases t s <;> simp [h]
@[simp] theorem waitPoll_dataDevLow (t : Level) (s : State) : (waitPoll t s).dataDevLow = s.dataDevLow := by
  obtain h | ⟨-, -, h⟩ := waitPoll_cases t s <;> simp [h]
@[simp] theorem waitPoll_inTxn (t : Level) (s : State) : (waitPoll t s).inTxn = s.inTxn := by
  obtain h | ⟨-, -, h⟩ := waitPoll_cases t s <;> simp [h]
@[simp] theorem waitPoll_inHandler (t : Level) (s : State) : (waitPoll t s).inHandler = s.inHandler := by
  obtain h | ⟨-, -, h⟩ := waitPoll_cases t s <;> simp [h]
@[simp] theorem waitPoll_now (t : Level) (s : State) : (waitPoll t s).now = s.now := by
  obtain h | ⟨-, -, h⟩ := waitPoll_cases t s <;> simp [h]
@[simp] theorem waitPoll_seq (t : Level) (s : State) : (waitPoll t s).seq = s.seq := by
  obtain h | ⟨-, -, h⟩ := waitPoll_cases t s <;> simp [h]
@[simp] theorem waitPoll_op (t : Level) (s : State) : (waitPoll t s).op = s.op := by
  obtain h | ⟨-, -, h⟩ := waitPoll_cases t s <;> simp [h]
@[simp] theorem waitPoll_suspended (t : Level) (s : State) : (waitPoll t s).suspended = s.suspended := by
  obtain h | ⟨-, -, h⟩ := waitPoll_cases t s <;> simp [h]
@[simp] theorem waitPoll_syn (t : Level) (s : State) : (waitPoll t s).syn = s.syn := by
  obtain h | ⟨-, -, h⟩ := waitPoll_cases t s <;> simp [h]
@[simp] theorem waitPoll_rxStream (t : Level) (s : State) : (waitPoll t s).rxStream = s.rxStream := by
  obtain h | ⟨-, -, h⟩ := waitPoll_cases t s <;> simp [h]
@[simp] theorem waitPoll_resultStream (t : Level) (s : State) : (waitPoll t s).resultStream = s.resultStream := by
  obtain h | ⟨-, -, h⟩ := waitPoll_cases t s <;> simp [h]
@[simp] theorem waitPoll_inputs (t : Level) (s : State) : (waitPoll t s).inputs = s.inputs := by
  obtain h | ⟨-, -, h⟩ := waitPoll_cases t s <;> simp [h]
@[simp] theorem waitPoll_choices (t : Level) (s : State) : (waitPoll t s).choices = s.choices := by
  obtain h | ⟨-, -, h⟩ := waitPoll_cases t s <;> simp [h]
@[simp] theorem waitPoll_txn (t : Level) (s : State) : (waitPoll t s).txn = s.txn := by
  obtain h | ⟨-, -, h⟩ := waitPoll_cases t s <;> simp [h]
@[simp] theorem waitPoll_wb (t : Level) (s : State) : (waitPoll t s).wb = s.wb := by
  obtain h | ⟨-, -, h⟩ := waitPoll_cases t s <;> simp [h]
@[simp] theorem waitPoll_rb (t : Level) (s : State) : (waitPoll t s).rb = s.rb := by
  obtain h | ⟨-, -, h⟩ := waitPoll_cases t s <;> simp [h]
@[simp] theorem waitPoll_clkPad (t : Level) (s : State) : (waitPoll t s).clkPad = s.clkPad := by
  obtain h | ⟨-, -, h⟩ := waitPoll_cases t s <;> simp [h]
@[simp] theorem waitPoll_dataPad (t : Level) (s : State) : (waitPoll t s).dataPad = s.dataPad := by
  obtain h | ⟨-, -, h⟩ := waitPoll_cases t s <;> simp [h]
@[simp] theorem waitPoll_waitT0 (t : Level) (s : State) : (waitPoll t s).waitT0 = s.waitT0 := by
  obtain h | ⟨-, -, h⟩ := waitPoll_cases t s <;> simp [h]

/-! ### `readBit` writes `rb_byte`, `rb_parity` and the log (R158-R161) -/

@[simp] theorem readBit_cfg (k : Nat) (d : Level) (s : State) : (readBit k d s).cfg = s.cfg := by
  unfold readBit; split; · simp
  split; · rfl
  split <;> simp
@[simp] theorem readBit_link (k : Nat) (d : Level) (s : State) : (readBit k d s).link = s.link := by
  unfold readBit; split; · simp
  split; · rfl
  split <;> simp
@[simp] theorem readBit_configured (k : Nat) (d : Level) (s : State) : (readBit k d s).configured = s.configured := by
  unfold readBit; split; · simp
  split; · rfl
  split <;> simp
@[simp] theorem readBit_frame (k : Nat) (d : Level) (s : State) : (readBit k d s).frame = s.frame := by
  unfold readBit; split; · simp
  split; · rfl
  split <;> simp
@[simp] theorem readBit_gate (k : Nat) (d : Level) (s : State) : (readBit k d s).gate = s.gate := by
  unfold readBit; split; · simp
  split; · rfl
  split <;> simp
@[simp] theorem readBit_edgePending (k : Nat) (d : Level) (s : State) : (readBit k d s).edgePending = s.edgePending := by
  unfold readBit; split; · simp
  split; · rfl
  split <;> simp
@[simp] theorem readBit_clkDevLow (k : Nat) (d : Level) (s : State) : (readBit k d s).clkDevLow = s.clkDevLow := by
  unfold readBit; split; · simp
  split; · rfl
  split <;> simp
@[simp] theorem readBit_dataDevLow (k : Nat) (d : Level) (s : State) : (readBit k d s).dataDevLow = s.dataDevLow := by
  unfold readBit; split; · simp
  split; · rfl
  split <;> simp
@[simp] theorem readBit_inTxn (k : Nat) (d : Level) (s : State) : (readBit k d s).inTxn = s.inTxn := by
  unfold readBit; split; · simp
  split; · rfl
  split <;> simp
@[simp] theorem readBit_inHandler (k : Nat) (d : Level) (s : State) : (readBit k d s).inHandler = s.inHandler := by
  unfold readBit; split; · simp
  split; · rfl
  split <;> simp
@[simp] theorem readBit_now (k : Nat) (d : Level) (s : State) : (readBit k d s).now = s.now := by
  unfold readBit; split; · simp
  split; · rfl
  split <;> simp
@[simp] theorem readBit_seq (k : Nat) (d : Level) (s : State) : (readBit k d s).seq = s.seq := by
  unfold readBit; split; · simp
  split; · rfl
  split <;> simp
@[simp] theorem readBit_op (k : Nat) (d : Level) (s : State) : (readBit k d s).op = s.op := by
  unfold readBit; split; · simp
  split; · rfl
  split <;> simp
@[simp] theorem readBit_suspended (k : Nat) (d : Level) (s : State) : (readBit k d s).suspended = s.suspended := by
  unfold readBit; split; · simp
  split; · rfl
  split <;> simp
@[simp] theorem readBit_syn (k : Nat) (d : Level) (s : State) : (readBit k d s).syn = s.syn := by
  unfold readBit; split; · simp
  split; · rfl
  split <;> simp
@[simp] theorem readBit_rxStream (k : Nat) (d : Level) (s : State) : (readBit k d s).rxStream = s.rxStream := by
  unfold readBit; split; · simp
  split; · rfl
  split <;> simp
@[simp] theorem readBit_resultStream (k : Nat) (d : Level) (s : State) : (readBit k d s).resultStream = s.resultStream := by
  unfold readBit; split; · simp
  split; · rfl
  split <;> simp
@[simp] theorem readBit_inputs (k : Nat) (d : Level) (s : State) : (readBit k d s).inputs = s.inputs := by
  unfold readBit; split; · simp
  split; · rfl
  split <;> simp
@[simp] theorem readBit_choices (k : Nat) (d : Level) (s : State) : (readBit k d s).choices = s.choices := by
  unfold readBit; split; · simp
  split; · rfl
  split <;> simp
@[simp] theorem readBit_txn (k : Nat) (d : Level) (s : State) : (readBit k d s).txn = s.txn := by
  unfold readBit; split; · simp
  split; · rfl
  split <;> simp
@[simp] theorem readBit_wb (k : Nat) (d : Level) (s : State) : (readBit k d s).wb = s.wb := by
  unfold readBit; split; · simp
  split; · rfl
  split <;> simp
@[simp] theorem readBit_clkPad (k : Nat) (d : Level) (s : State) : (readBit k d s).clkPad = s.clkPad := by
  unfold readBit; split; · simp
  split; · rfl
  split <;> simp
@[simp] theorem readBit_dataPad (k : Nat) (d : Level) (s : State) : (readBit k d s).dataPad = s.dataPad := by
  unfold readBit; split; · simp
  split; · rfl
  split <;> simp
@[simp] theorem readBit_waitT0 (k : Nat) (d : Level) (s : State) : (readBit k d s).waitT0 = s.waitT0 := by
  unfold readBit; split; · simp
  split; · rfl
  split <;> simp
@[simp] theorem readBit_draws (k : Nat) (d : Level) (s : State) : (readBit k d s).draws = s.draws := by
  unfold readBit; split; · simp
  split; · rfl
  split <;> simp

/-! ### `readSample` writes the pad of `DATA`, the read registers and the log -/

@[simp] theorem readSample_cfg (k : Nat) (s : State) : (readSample k s).cfg = s.cfg := by
  simp [readSample]
@[simp] theorem readSample_link (k : Nat) (s : State) : (readSample k s).link = s.link := by
  simp [readSample]
@[simp] theorem readSample_configured (k : Nat) (s : State) : (readSample k s).configured = s.configured := by
  simp [readSample]
@[simp] theorem readSample_frame (k : Nat) (s : State) : (readSample k s).frame = s.frame := by
  simp [readSample]
@[simp] theorem readSample_gate (k : Nat) (s : State) : (readSample k s).gate = s.gate := by
  simp [readSample]
@[simp] theorem readSample_edgePending (k : Nat) (s : State) : (readSample k s).edgePending = s.edgePending := by
  simp [readSample]
@[simp] theorem readSample_clkDevLow (k : Nat) (s : State) : (readSample k s).clkDevLow = s.clkDevLow := by
  simp [readSample]
@[simp] theorem readSample_dataDevLow (k : Nat) (s : State) : (readSample k s).dataDevLow = s.dataDevLow := by
  simp [readSample]
@[simp] theorem readSample_inTxn (k : Nat) (s : State) : (readSample k s).inTxn = s.inTxn := by
  simp [readSample]
@[simp] theorem readSample_inHandler (k : Nat) (s : State) : (readSample k s).inHandler = s.inHandler := by
  simp [readSample]
@[simp] theorem readSample_now (k : Nat) (s : State) : (readSample k s).now = s.now := by
  simp [readSample]
@[simp] theorem readSample_seq (k : Nat) (s : State) : (readSample k s).seq = s.seq := by
  simp [readSample]
@[simp] theorem readSample_op (k : Nat) (s : State) : (readSample k s).op = s.op := by
  simp [readSample]
@[simp] theorem readSample_suspended (k : Nat) (s : State) : (readSample k s).suspended = s.suspended := by
  simp [readSample]
@[simp] theorem readSample_syn (k : Nat) (s : State) : (readSample k s).syn = s.syn := by
  simp [readSample]
@[simp] theorem readSample_rxStream (k : Nat) (s : State) : (readSample k s).rxStream = s.rxStream := by
  simp [readSample]
@[simp] theorem readSample_resultStream (k : Nat) (s : State) : (readSample k s).resultStream = s.resultStream := by
  simp [readSample]
@[simp] theorem readSample_inputs (k : Nat) (s : State) : (readSample k s).inputs = s.inputs := by
  simp [readSample]
@[simp] theorem readSample_choices (k : Nat) (s : State) : (readSample k s).choices = s.choices := by
  simp [readSample]
@[simp] theorem readSample_txn (k : Nat) (s : State) : (readSample k s).txn = s.txn := by
  simp [readSample]
@[simp] theorem readSample_wb (k : Nat) (s : State) : (readSample k s).wb = s.wb := by
  simp [readSample]
@[simp] theorem readSample_clkPad (k : Nat) (s : State) : (readSample k s).clkPad = s.clkPad := by
  simp [readSample]
@[simp] theorem readSample_waitT0 (k : Nat) (s : State) : (readSample k s).waitT0 = s.waitT0 := by
  simp [readSample]

/-! ### `writeBit` writes the pad of `DATA` and `wb_parity` (R152-R154) -/

@[simp] theorem writeBit_cfg (i : Nat) (s : State) : (writeBit i s).cfg = s.cfg := by
  unfold writeBit; split; · simp
  split <;> simp
@[simp] theorem writeBit_link (i : Nat) (s : State) : (writeBit i s).link = s.link := by
  unfold writeBit; split; · simp
  split <;> simp
@[simp] theorem writeBit_configured (i : Nat) (s : State) : (writeBit i s).configured = s.configured := by
  unfold writeBit; split; · simp
  split <;> simp
@[simp] theorem writeBit_frame (i : Nat) (s : State) : (writeBit i s).frame = s.frame := by
  unfold writeBit; split; · simp
  split <;> simp
@[simp] theorem writeBit_gate (i : Nat) (s : State) : (writeBit i s).gate = s.gate := by
  unfold writeBit; split; · simp
  split <;> simp
@[simp] theorem writeBit_edgePending (i : Nat) (s : State) : (writeBit i s).edgePending = s.edgePending := by
  unfold writeBit; split; · simp
  split <;> simp
@[simp] theorem writeBit_clkDevLow (i : Nat) (s : State) : (writeBit i s).clkDevLow = s.clkDevLow := by
  unfold writeBit; split; · simp
  split <;> simp
@[simp] theorem writeBit_dataDevLow (i : Nat) (s : State) : (writeBit i s).dataDevLow = s.dataDevLow := by
  unfold writeBit; split; · simp
  split <;> simp
@[simp] theorem writeBit_inTxn (i : Nat) (s : State) : (writeBit i s).inTxn = s.inTxn := by
  unfold writeBit; split; · simp
  split <;> simp
@[simp] theorem writeBit_inHandler (i : Nat) (s : State) : (writeBit i s).inHandler = s.inHandler := by
  unfold writeBit; split; · simp
  split <;> simp
@[simp] theorem writeBit_now (i : Nat) (s : State) : (writeBit i s).now = s.now := by
  unfold writeBit; split; · simp
  split <;> simp
@[simp] theorem writeBit_seq (i : Nat) (s : State) : (writeBit i s).seq = s.seq := by
  unfold writeBit; split; · simp
  split <;> simp
@[simp] theorem writeBit_op (i : Nat) (s : State) : (writeBit i s).op = s.op := by
  unfold writeBit; split; · simp
  split <;> simp
@[simp] theorem writeBit_suspended (i : Nat) (s : State) : (writeBit i s).suspended = s.suspended := by
  unfold writeBit; split; · simp
  split <;> simp
@[simp] theorem writeBit_syn (i : Nat) (s : State) : (writeBit i s).syn = s.syn := by
  unfold writeBit; split; · simp
  split <;> simp
@[simp] theorem writeBit_rxStream (i : Nat) (s : State) : (writeBit i s).rxStream = s.rxStream := by
  unfold writeBit; split; · simp
  split <;> simp
@[simp] theorem writeBit_resultStream (i : Nat) (s : State) : (writeBit i s).resultStream = s.resultStream := by
  unfold writeBit; split; · simp
  split <;> simp
@[simp] theorem writeBit_inputs (i : Nat) (s : State) : (writeBit i s).inputs = s.inputs := by
  unfold writeBit; split; · simp
  split <;> simp
@[simp] theorem writeBit_choices (i : Nat) (s : State) : (writeBit i s).choices = s.choices := by
  unfold writeBit; split; · simp
  split <;> simp
@[simp] theorem writeBit_txn (i : Nat) (s : State) : (writeBit i s).txn = s.txn := by
  unfold writeBit; split; · simp
  split <;> simp
@[simp] theorem writeBit_rb (i : Nat) (s : State) : (writeBit i s).rb = s.rb := by
  unfold writeBit; split; · simp
  split <;> simp
@[simp] theorem writeBit_clkPad (i : Nat) (s : State) : (writeBit i s).clkPad = s.clkPad := by
  unfold writeBit; split; · simp
  split <;> simp
@[simp] theorem writeBit_waitT0 (i : Nat) (s : State) : (writeBit i s).waitT0 = s.waitT0 := by
  unfold writeBit; split; · simp
  split <;> simp
@[simp] theorem writeBit_draws (i : Nat) (s : State) : (writeBit i s).draws = s.draws := by
  unfold writeBit; split; · simp
  split <;> simp
@[simp] theorem writeBit_diagLog (i : Nat) (s : State) : (writeBit i s).diagLog = s.diagLog := by
  unfold writeBit; split; · simp
  split <;> simp

/-! ### `lineControl` writes the pad of `DATA`, `wb_lc` and the log (R155) -/

@[simp] theorem lineControl_cfg (s : State) : (lineControl s).cfg = s.cfg := by
  simp [lineControl]
@[simp] theorem lineControl_link (s : State) : (lineControl s).link = s.link := by
  simp [lineControl]
@[simp] theorem lineControl_configured (s : State) : (lineControl s).configured = s.configured := by
  simp [lineControl]
@[simp] theorem lineControl_frame (s : State) : (lineControl s).frame = s.frame := by
  simp [lineControl]
@[simp] theorem lineControl_gate (s : State) : (lineControl s).gate = s.gate := by
  simp [lineControl]
@[simp] theorem lineControl_edgePending (s : State) : (lineControl s).edgePending = s.edgePending := by
  simp [lineControl]
@[simp] theorem lineControl_clkDevLow (s : State) : (lineControl s).clkDevLow = s.clkDevLow := by
  simp [lineControl]
@[simp] theorem lineControl_dataDevLow (s : State) : (lineControl s).dataDevLow = s.dataDevLow := by
  simp [lineControl]
@[simp] theorem lineControl_inTxn (s : State) : (lineControl s).inTxn = s.inTxn := by
  simp [lineControl]
@[simp] theorem lineControl_inHandler (s : State) : (lineControl s).inHandler = s.inHandler := by
  simp [lineControl]
@[simp] theorem lineControl_now (s : State) : (lineControl s).now = s.now := by
  simp [lineControl]
@[simp] theorem lineControl_seq (s : State) : (lineControl s).seq = s.seq := by
  simp [lineControl]
@[simp] theorem lineControl_op (s : State) : (lineControl s).op = s.op := by
  simp [lineControl]
@[simp] theorem lineControl_suspended (s : State) : (lineControl s).suspended = s.suspended := by
  simp [lineControl]
@[simp] theorem lineControl_syn (s : State) : (lineControl s).syn = s.syn := by
  simp [lineControl]
@[simp] theorem lineControl_rxStream (s : State) : (lineControl s).rxStream = s.rxStream := by
  simp [lineControl]
@[simp] theorem lineControl_resultStream (s : State) : (lineControl s).resultStream = s.resultStream := by
  simp [lineControl]
@[simp] theorem lineControl_inputs (s : State) : (lineControl s).inputs = s.inputs := by
  simp [lineControl]
@[simp] theorem lineControl_choices (s : State) : (lineControl s).choices = s.choices := by
  simp [lineControl]
@[simp] theorem lineControl_txn (s : State) : (lineControl s).txn = s.txn := by
  simp [lineControl]
@[simp] theorem lineControl_rb (s : State) : (lineControl s).rb = s.rb := by
  simp [lineControl]
@[simp] theorem lineControl_clkPad (s : State) : (lineControl s).clkPad = s.clkPad := by
  simp [lineControl]
@[simp] theorem lineControl_waitT0 (s : State) : (lineControl s).waitT0 = s.waitT0 := by
  simp [lineControl]

/-! ### `writeCheck` writes `ok` and the log (R156) -/

@[simp] theorem writeCheck_cfg (s : State) : (writeCheck s).cfg = s.cfg := by
  simp [writeCheck]
@[simp] theorem writeCheck_link (s : State) : (writeCheck s).link = s.link := by
  simp [writeCheck]
@[simp] theorem writeCheck_configured (s : State) : (writeCheck s).configured = s.configured := by
  simp [writeCheck]
@[simp] theorem writeCheck_frame (s : State) : (writeCheck s).frame = s.frame := by
  simp [writeCheck]
@[simp] theorem writeCheck_gate (s : State) : (writeCheck s).gate = s.gate := by
  simp [writeCheck]
@[simp] theorem writeCheck_edgePending (s : State) : (writeCheck s).edgePending = s.edgePending := by
  simp [writeCheck]
@[simp] theorem writeCheck_clkDevLow (s : State) : (writeCheck s).clkDevLow = s.clkDevLow := by
  simp [writeCheck]
@[simp] theorem writeCheck_dataDevLow (s : State) : (writeCheck s).dataDevLow = s.dataDevLow := by
  simp [writeCheck]
@[simp] theorem writeCheck_inTxn (s : State) : (writeCheck s).inTxn = s.inTxn := by
  simp [writeCheck]
@[simp] theorem writeCheck_inHandler (s : State) : (writeCheck s).inHandler = s.inHandler := by
  simp [writeCheck]
@[simp] theorem writeCheck_now (s : State) : (writeCheck s).now = s.now := by
  simp [writeCheck]
@[simp] theorem writeCheck_seq (s : State) : (writeCheck s).seq = s.seq := by
  simp [writeCheck]
@[simp] theorem writeCheck_op (s : State) : (writeCheck s).op = s.op := by
  simp [writeCheck]
@[simp] theorem writeCheck_suspended (s : State) : (writeCheck s).suspended = s.suspended := by
  simp [writeCheck]
@[simp] theorem writeCheck_syn (s : State) : (writeCheck s).syn = s.syn := by
  simp [writeCheck]
@[simp] theorem writeCheck_rxStream (s : State) : (writeCheck s).rxStream = s.rxStream := by
  simp [writeCheck]
@[simp] theorem writeCheck_resultStream (s : State) : (writeCheck s).resultStream = s.resultStream := by
  simp [writeCheck]
@[simp] theorem writeCheck_inputs (s : State) : (writeCheck s).inputs = s.inputs := by
  simp [writeCheck]
@[simp] theorem writeCheck_choices (s : State) : (writeCheck s).choices = s.choices := by
  simp [writeCheck]
@[simp] theorem writeCheck_wb (s : State) : (writeCheck s).wb = s.wb := by
  simp [writeCheck]
@[simp] theorem writeCheck_rb (s : State) : (writeCheck s).rb = s.rb := by
  simp [writeCheck]
@[simp] theorem writeCheck_clkPad (s : State) : (writeCheck s).clkPad = s.clkPad := by
  simp [writeCheck]
@[simp] theorem writeCheck_dataPad (s : State) : (writeCheck s).dataPad = s.dataPad := by
  simp [writeCheck]
@[simp] theorem writeCheck_waitT0 (s : State) : (writeCheck s).waitT0 = s.waitT0 := by
  simp [writeCheck]
@[simp] theorem writeCheck_draws (s : State) : (writeCheck s).draws = s.draws := by
  simp [writeCheck]

/-! ### `takeAck` writes `wb_ack` -/

@[simp] theorem takeAck_cfg (p : ReadPos) (s : State) : (takeAck p s).cfg = s.cfg := by
  unfold takeAck; split <;> rfl
@[simp] theorem takeAck_link (p : ReadPos) (s : State) : (takeAck p s).link = s.link := by
  unfold takeAck; split <;> rfl
@[simp] theorem takeAck_configured (p : ReadPos) (s : State) : (takeAck p s).configured = s.configured := by
  unfold takeAck; split <;> rfl
@[simp] theorem takeAck_frame (p : ReadPos) (s : State) : (takeAck p s).frame = s.frame := by
  unfold takeAck; split <;> rfl
@[simp] theorem takeAck_gate (p : ReadPos) (s : State) : (takeAck p s).gate = s.gate := by
  unfold takeAck; split <;> rfl
@[simp] theorem takeAck_edgePending (p : ReadPos) (s : State) : (takeAck p s).edgePending = s.edgePending := by
  unfold takeAck; split <;> rfl
@[simp] theorem takeAck_clkDevLow (p : ReadPos) (s : State) : (takeAck p s).clkDevLow = s.clkDevLow := by
  unfold takeAck; split <;> rfl
@[simp] theorem takeAck_dataDevLow (p : ReadPos) (s : State) : (takeAck p s).dataDevLow = s.dataDevLow := by
  unfold takeAck; split <;> rfl
@[simp] theorem takeAck_inTxn (p : ReadPos) (s : State) : (takeAck p s).inTxn = s.inTxn := by
  unfold takeAck; split <;> rfl
@[simp] theorem takeAck_inHandler (p : ReadPos) (s : State) : (takeAck p s).inHandler = s.inHandler := by
  unfold takeAck; split <;> rfl
@[simp] theorem takeAck_now (p : ReadPos) (s : State) : (takeAck p s).now = s.now := by
  unfold takeAck; split <;> rfl
@[simp] theorem takeAck_seq (p : ReadPos) (s : State) : (takeAck p s).seq = s.seq := by
  unfold takeAck; split <;> rfl
@[simp] theorem takeAck_op (p : ReadPos) (s : State) : (takeAck p s).op = s.op := by
  unfold takeAck; split <;> rfl
@[simp] theorem takeAck_suspended (p : ReadPos) (s : State) : (takeAck p s).suspended = s.suspended := by
  unfold takeAck; split <;> rfl
@[simp] theorem takeAck_syn (p : ReadPos) (s : State) : (takeAck p s).syn = s.syn := by
  unfold takeAck; split <;> rfl
@[simp] theorem takeAck_rxStream (p : ReadPos) (s : State) : (takeAck p s).rxStream = s.rxStream := by
  unfold takeAck; split <;> rfl
@[simp] theorem takeAck_resultStream (p : ReadPos) (s : State) : (takeAck p s).resultStream = s.resultStream := by
  unfold takeAck; split <;> rfl
@[simp] theorem takeAck_inputs (p : ReadPos) (s : State) : (takeAck p s).inputs = s.inputs := by
  unfold takeAck; split <;> rfl
@[simp] theorem takeAck_choices (p : ReadPos) (s : State) : (takeAck p s).choices = s.choices := by
  unfold takeAck; split <;> rfl
@[simp] theorem takeAck_txn (p : ReadPos) (s : State) : (takeAck p s).txn = s.txn := by
  unfold takeAck; split <;> rfl
@[simp] theorem takeAck_rb (p : ReadPos) (s : State) : (takeAck p s).rb = s.rb := by
  unfold takeAck; split <;> rfl
@[simp] theorem takeAck_clkPad (p : ReadPos) (s : State) : (takeAck p s).clkPad = s.clkPad := by
  unfold takeAck; split <;> rfl
@[simp] theorem takeAck_dataPad (p : ReadPos) (s : State) : (takeAck p s).dataPad = s.dataPad := by
  unfold takeAck; split <;> rfl
@[simp] theorem takeAck_waitT0 (p : ReadPos) (s : State) : (takeAck p s).waitT0 = s.waitT0 := by
  unfold takeAck; split <;> rfl
@[simp] theorem takeAck_draws (p : ReadPos) (s : State) : (takeAck p s).draws = s.draws := by
  unfold takeAck; split <;> rfl
@[simp] theorem takeAck_diagLog (p : ReadPos) (s : State) : (takeAck p s).diagLog = s.diagLog := by
  unfold takeAck; split <;> rfl

/-! ### `takeResponse` writes `results` -/

@[simp] theorem takeResponse_cfg (p : ReadPos) (s : State) : (takeResponse p s).cfg = s.cfg := by
  unfold takeResponse; split <;> rfl
@[simp] theorem takeResponse_link (p : ReadPos) (s : State) : (takeResponse p s).link = s.link := by
  unfold takeResponse; split <;> rfl
@[simp] theorem takeResponse_configured (p : ReadPos) (s : State) : (takeResponse p s).configured = s.configured := by
  unfold takeResponse; split <;> rfl
@[simp] theorem takeResponse_frame (p : ReadPos) (s : State) : (takeResponse p s).frame = s.frame := by
  unfold takeResponse; split <;> rfl
@[simp] theorem takeResponse_gate (p : ReadPos) (s : State) : (takeResponse p s).gate = s.gate := by
  unfold takeResponse; split <;> rfl
@[simp] theorem takeResponse_edgePending (p : ReadPos) (s : State) : (takeResponse p s).edgePending = s.edgePending := by
  unfold takeResponse; split <;> rfl
@[simp] theorem takeResponse_clkDevLow (p : ReadPos) (s : State) : (takeResponse p s).clkDevLow = s.clkDevLow := by
  unfold takeResponse; split <;> rfl
@[simp] theorem takeResponse_dataDevLow (p : ReadPos) (s : State) : (takeResponse p s).dataDevLow = s.dataDevLow := by
  unfold takeResponse; split <;> rfl
@[simp] theorem takeResponse_inTxn (p : ReadPos) (s : State) : (takeResponse p s).inTxn = s.inTxn := by
  unfold takeResponse; split <;> rfl
@[simp] theorem takeResponse_inHandler (p : ReadPos) (s : State) : (takeResponse p s).inHandler = s.inHandler := by
  unfold takeResponse; split <;> rfl
@[simp] theorem takeResponse_now (p : ReadPos) (s : State) : (takeResponse p s).now = s.now := by
  unfold takeResponse; split <;> rfl
@[simp] theorem takeResponse_seq (p : ReadPos) (s : State) : (takeResponse p s).seq = s.seq := by
  unfold takeResponse; split <;> rfl
@[simp] theorem takeResponse_op (p : ReadPos) (s : State) : (takeResponse p s).op = s.op := by
  unfold takeResponse; split <;> rfl
@[simp] theorem takeResponse_suspended (p : ReadPos) (s : State) : (takeResponse p s).suspended = s.suspended := by
  unfold takeResponse; split <;> rfl
@[simp] theorem takeResponse_syn (p : ReadPos) (s : State) : (takeResponse p s).syn = s.syn := by
  unfold takeResponse; split <;> rfl
@[simp] theorem takeResponse_rxStream (p : ReadPos) (s : State) : (takeResponse p s).rxStream = s.rxStream := by
  unfold takeResponse; split <;> rfl
@[simp] theorem takeResponse_resultStream (p : ReadPos) (s : State) : (takeResponse p s).resultStream = s.resultStream := by
  unfold takeResponse; split <;> rfl
@[simp] theorem takeResponse_inputs (p : ReadPos) (s : State) : (takeResponse p s).inputs = s.inputs := by
  unfold takeResponse; split <;> rfl
@[simp] theorem takeResponse_choices (p : ReadPos) (s : State) : (takeResponse p s).choices = s.choices := by
  unfold takeResponse; split <;> rfl
@[simp] theorem takeResponse_wb (p : ReadPos) (s : State) : (takeResponse p s).wb = s.wb := by
  unfold takeResponse; split <;> rfl
@[simp] theorem takeResponse_rb (p : ReadPos) (s : State) : (takeResponse p s).rb = s.rb := by
  unfold takeResponse; split <;> rfl
@[simp] theorem takeResponse_clkPad (p : ReadPos) (s : State) : (takeResponse p s).clkPad = s.clkPad := by
  unfold takeResponse; split <;> rfl
@[simp] theorem takeResponse_dataPad (p : ReadPos) (s : State) : (takeResponse p s).dataPad = s.dataPad := by
  unfold takeResponse; split <;> rfl
@[simp] theorem takeResponse_waitT0 (p : ReadPos) (s : State) : (takeResponse p s).waitT0 = s.waitT0 := by
  unfold takeResponse; split <;> rfl
@[simp] theorem takeResponse_draws (p : ReadPos) (s : State) : (takeResponse p s).draws = s.draws := by
  unfold takeResponse; split <;> rfl
@[simp] theorem takeResponse_diagLog (p : ReadPos) (s : State) : (takeResponse p s).diagLog = s.diagLog := by
  unfold takeResponse; split <;> rfl

/-! ### A primitive of `read_byte_sync` writes the pads, `wait_t0`, the read registers and the log (R163) -/

@[simp] theorem readEffect_cfg (p : ReadPos) (s : State) : (readEffect p s).cfg = s.cfg := by
  rcases p with ⟨k, _ | _⟩ | k | ⟨k, _ | _⟩ | _ | ⟨_ | _⟩ | _ <;> simp [readEffect, apply_ite]
@[simp] theorem readEffect_link (p : ReadPos) (s : State) : (readEffect p s).link = s.link := by
  rcases p with ⟨k, _ | _⟩ | k | ⟨k, _ | _⟩ | _ | ⟨_ | _⟩ | _ <;> simp [readEffect, apply_ite]
@[simp] theorem readEffect_configured (p : ReadPos) (s : State) : (readEffect p s).configured = s.configured := by
  rcases p with ⟨k, _ | _⟩ | k | ⟨k, _ | _⟩ | _ | ⟨_ | _⟩ | _ <;> simp [readEffect, apply_ite]
@[simp] theorem readEffect_frame (p : ReadPos) (s : State) : (readEffect p s).frame = s.frame := by
  rcases p with ⟨k, _ | _⟩ | k | ⟨k, _ | _⟩ | _ | ⟨_ | _⟩ | _ <;> simp [readEffect, apply_ite]
@[simp] theorem readEffect_gate (p : ReadPos) (s : State) : (readEffect p s).gate = s.gate := by
  rcases p with ⟨k, _ | _⟩ | k | ⟨k, _ | _⟩ | _ | ⟨_ | _⟩ | _ <;> simp [readEffect, apply_ite]
@[simp] theorem readEffect_edgePending (p : ReadPos) (s : State) : (readEffect p s).edgePending = s.edgePending := by
  rcases p with ⟨k, _ | _⟩ | k | ⟨k, _ | _⟩ | _ | ⟨_ | _⟩ | _ <;> simp [readEffect, apply_ite]
@[simp] theorem readEffect_clkDevLow (p : ReadPos) (s : State) : (readEffect p s).clkDevLow = s.clkDevLow := by
  rcases p with ⟨k, _ | _⟩ | k | ⟨k, _ | _⟩ | _ | ⟨_ | _⟩ | _ <;> simp [readEffect, apply_ite]
@[simp] theorem readEffect_dataDevLow (p : ReadPos) (s : State) : (readEffect p s).dataDevLow = s.dataDevLow := by
  rcases p with ⟨k, _ | _⟩ | k | ⟨k, _ | _⟩ | _ | ⟨_ | _⟩ | _ <;> simp [readEffect, apply_ite]
@[simp] theorem readEffect_inTxn (p : ReadPos) (s : State) : (readEffect p s).inTxn = s.inTxn := by
  rcases p with ⟨k, _ | _⟩ | k | ⟨k, _ | _⟩ | _ | ⟨_ | _⟩ | _ <;> simp [readEffect, apply_ite]
@[simp] theorem readEffect_inHandler (p : ReadPos) (s : State) : (readEffect p s).inHandler = s.inHandler := by
  rcases p with ⟨k, _ | _⟩ | k | ⟨k, _ | _⟩ | _ | ⟨_ | _⟩ | _ <;> simp [readEffect, apply_ite]
@[simp] theorem readEffect_now (p : ReadPos) (s : State) : (readEffect p s).now = s.now := by
  rcases p with ⟨k, _ | _⟩ | k | ⟨k, _ | _⟩ | _ | ⟨_ | _⟩ | _ <;> simp [readEffect, apply_ite]
@[simp] theorem readEffect_seq (p : ReadPos) (s : State) : (readEffect p s).seq = s.seq := by
  rcases p with ⟨k, _ | _⟩ | k | ⟨k, _ | _⟩ | _ | ⟨_ | _⟩ | _ <;> simp [readEffect, apply_ite]
@[simp] theorem readEffect_op (p : ReadPos) (s : State) : (readEffect p s).op = s.op := by
  rcases p with ⟨k, _ | _⟩ | k | ⟨k, _ | _⟩ | _ | ⟨_ | _⟩ | _ <;> simp [readEffect, apply_ite]
@[simp] theorem readEffect_suspended (p : ReadPos) (s : State) : (readEffect p s).suspended = s.suspended := by
  rcases p with ⟨k, _ | _⟩ | k | ⟨k, _ | _⟩ | _ | ⟨_ | _⟩ | _ <;> simp [readEffect, apply_ite]
@[simp] theorem readEffect_syn (p : ReadPos) (s : State) : (readEffect p s).syn = s.syn := by
  rcases p with ⟨k, _ | _⟩ | k | ⟨k, _ | _⟩ | _ | ⟨_ | _⟩ | _ <;> simp [readEffect, apply_ite]
@[simp] theorem readEffect_rxStream (p : ReadPos) (s : State) : (readEffect p s).rxStream = s.rxStream := by
  rcases p with ⟨k, _ | _⟩ | k | ⟨k, _ | _⟩ | _ | ⟨_ | _⟩ | _ <;> simp [readEffect, apply_ite]
@[simp] theorem readEffect_resultStream (p : ReadPos) (s : State) : (readEffect p s).resultStream = s.resultStream := by
  rcases p with ⟨k, _ | _⟩ | k | ⟨k, _ | _⟩ | _ | ⟨_ | _⟩ | _ <;> simp [readEffect, apply_ite]
@[simp] theorem readEffect_inputs (p : ReadPos) (s : State) : (readEffect p s).inputs = s.inputs := by
  rcases p with ⟨k, _ | _⟩ | k | ⟨k, _ | _⟩ | _ | ⟨_ | _⟩ | _ <;> simp [readEffect, apply_ite]
@[simp] theorem readEffect_choices (p : ReadPos) (s : State) : (readEffect p s).choices = s.choices := by
  rcases p with ⟨k, _ | _⟩ | k | ⟨k, _ | _⟩ | _ | ⟨_ | _⟩ | _ <;> simp [readEffect, apply_ite]
@[simp] theorem readEffect_txn (p : ReadPos) (s : State) : (readEffect p s).txn = s.txn := by
  rcases p with ⟨k, _ | _⟩ | k | ⟨k, _ | _⟩ | _ | ⟨_ | _⟩ | _ <;> simp [readEffect, apply_ite]
@[simp] theorem readEffect_wb (p : ReadPos) (s : State) : (readEffect p s).wb = s.wb := by
  rcases p with ⟨k, _ | _⟩ | k | ⟨k, _ | _⟩ | _ | ⟨_ | _⟩ | _ <;> simp [readEffect, apply_ite]

/-! ### A primitive of `write_byte` writes the pads, `wait_t0`, its registers, the read's registers, `ok` and the log (R157) -/

@[simp] theorem writeEffect_cfg (b : Byte) (p : WritePos) (s : State) : (writeEffect b p s).cfg = s.cfg := by
  rcases p with _ | ⟨_ | _⟩ | _ | _ | ⟨i, _ | _⟩ | i | ⟨i, _ | _⟩ | ⟨_ | _⟩ | _ | ⟨_ | _⟩ | q | _ <;>
    simp [writeEffect]
@[simp] theorem writeEffect_link (b : Byte) (p : WritePos) (s : State) : (writeEffect b p s).link = s.link := by
  rcases p with _ | ⟨_ | _⟩ | _ | _ | ⟨i, _ | _⟩ | i | ⟨i, _ | _⟩ | ⟨_ | _⟩ | _ | ⟨_ | _⟩ | q | _ <;>
    simp [writeEffect]
@[simp] theorem writeEffect_configured (b : Byte) (p : WritePos) (s : State) : (writeEffect b p s).configured = s.configured := by
  rcases p with _ | ⟨_ | _⟩ | _ | _ | ⟨i, _ | _⟩ | i | ⟨i, _ | _⟩ | ⟨_ | _⟩ | _ | ⟨_ | _⟩ | q | _ <;>
    simp [writeEffect]
@[simp] theorem writeEffect_frame (b : Byte) (p : WritePos) (s : State) : (writeEffect b p s).frame = s.frame := by
  rcases p with _ | ⟨_ | _⟩ | _ | _ | ⟨i, _ | _⟩ | i | ⟨i, _ | _⟩ | ⟨_ | _⟩ | _ | ⟨_ | _⟩ | q | _ <;>
    simp [writeEffect]
@[simp] theorem writeEffect_gate (b : Byte) (p : WritePos) (s : State) : (writeEffect b p s).gate = s.gate := by
  rcases p with _ | ⟨_ | _⟩ | _ | _ | ⟨i, _ | _⟩ | i | ⟨i, _ | _⟩ | ⟨_ | _⟩ | _ | ⟨_ | _⟩ | q | _ <;>
    simp [writeEffect]
@[simp] theorem writeEffect_edgePending (b : Byte) (p : WritePos) (s : State) : (writeEffect b p s).edgePending = s.edgePending := by
  rcases p with _ | ⟨_ | _⟩ | _ | _ | ⟨i, _ | _⟩ | i | ⟨i, _ | _⟩ | ⟨_ | _⟩ | _ | ⟨_ | _⟩ | q | _ <;>
    simp [writeEffect]
@[simp] theorem writeEffect_clkDevLow (b : Byte) (p : WritePos) (s : State) : (writeEffect b p s).clkDevLow = s.clkDevLow := by
  rcases p with _ | ⟨_ | _⟩ | _ | _ | ⟨i, _ | _⟩ | i | ⟨i, _ | _⟩ | ⟨_ | _⟩ | _ | ⟨_ | _⟩ | q | _ <;>
    simp [writeEffect]
@[simp] theorem writeEffect_dataDevLow (b : Byte) (p : WritePos) (s : State) : (writeEffect b p s).dataDevLow = s.dataDevLow := by
  rcases p with _ | ⟨_ | _⟩ | _ | _ | ⟨i, _ | _⟩ | i | ⟨i, _ | _⟩ | ⟨_ | _⟩ | _ | ⟨_ | _⟩ | q | _ <;>
    simp [writeEffect]
@[simp] theorem writeEffect_inTxn (b : Byte) (p : WritePos) (s : State) : (writeEffect b p s).inTxn = s.inTxn := by
  rcases p with _ | ⟨_ | _⟩ | _ | _ | ⟨i, _ | _⟩ | i | ⟨i, _ | _⟩ | ⟨_ | _⟩ | _ | ⟨_ | _⟩ | q | _ <;>
    simp [writeEffect]
@[simp] theorem writeEffect_inHandler (b : Byte) (p : WritePos) (s : State) : (writeEffect b p s).inHandler = s.inHandler := by
  rcases p with _ | ⟨_ | _⟩ | _ | _ | ⟨i, _ | _⟩ | i | ⟨i, _ | _⟩ | ⟨_ | _⟩ | _ | ⟨_ | _⟩ | q | _ <;>
    simp [writeEffect]
@[simp] theorem writeEffect_now (b : Byte) (p : WritePos) (s : State) : (writeEffect b p s).now = s.now := by
  rcases p with _ | ⟨_ | _⟩ | _ | _ | ⟨i, _ | _⟩ | i | ⟨i, _ | _⟩ | ⟨_ | _⟩ | _ | ⟨_ | _⟩ | q | _ <;>
    simp [writeEffect]
@[simp] theorem writeEffect_seq (b : Byte) (p : WritePos) (s : State) : (writeEffect b p s).seq = s.seq := by
  rcases p with _ | ⟨_ | _⟩ | _ | _ | ⟨i, _ | _⟩ | i | ⟨i, _ | _⟩ | ⟨_ | _⟩ | _ | ⟨_ | _⟩ | q | _ <;>
    simp [writeEffect]
@[simp] theorem writeEffect_op (b : Byte) (p : WritePos) (s : State) : (writeEffect b p s).op = s.op := by
  rcases p with _ | ⟨_ | _⟩ | _ | _ | ⟨i, _ | _⟩ | i | ⟨i, _ | _⟩ | ⟨_ | _⟩ | _ | ⟨_ | _⟩ | q | _ <;>
    simp [writeEffect]
@[simp] theorem writeEffect_suspended (b : Byte) (p : WritePos) (s : State) : (writeEffect b p s).suspended = s.suspended := by
  rcases p with _ | ⟨_ | _⟩ | _ | _ | ⟨i, _ | _⟩ | i | ⟨i, _ | _⟩ | ⟨_ | _⟩ | _ | ⟨_ | _⟩ | q | _ <;>
    simp [writeEffect]
@[simp] theorem writeEffect_syn (b : Byte) (p : WritePos) (s : State) : (writeEffect b p s).syn = s.syn := by
  rcases p with _ | ⟨_ | _⟩ | _ | _ | ⟨i, _ | _⟩ | i | ⟨i, _ | _⟩ | ⟨_ | _⟩ | _ | ⟨_ | _⟩ | q | _ <;>
    simp [writeEffect]
@[simp] theorem writeEffect_rxStream (b : Byte) (p : WritePos) (s : State) : (writeEffect b p s).rxStream = s.rxStream := by
  rcases p with _ | ⟨_ | _⟩ | _ | _ | ⟨i, _ | _⟩ | i | ⟨i, _ | _⟩ | ⟨_ | _⟩ | _ | ⟨_ | _⟩ | q | _ <;>
    simp [writeEffect]
@[simp] theorem writeEffect_resultStream (b : Byte) (p : WritePos) (s : State) : (writeEffect b p s).resultStream = s.resultStream := by
  rcases p with _ | ⟨_ | _⟩ | _ | _ | ⟨i, _ | _⟩ | i | ⟨i, _ | _⟩ | ⟨_ | _⟩ | _ | ⟨_ | _⟩ | q | _ <;>
    simp [writeEffect]
@[simp] theorem writeEffect_inputs (b : Byte) (p : WritePos) (s : State) : (writeEffect b p s).inputs = s.inputs := by
  rcases p with _ | ⟨_ | _⟩ | _ | _ | ⟨i, _ | _⟩ | i | ⟨i, _ | _⟩ | ⟨_ | _⟩ | _ | ⟨_ | _⟩ | q | _ <;>
    simp [writeEffect]
@[simp] theorem writeEffect_choices (b : Byte) (p : WritePos) (s : State) : (writeEffect b p s).choices = s.choices := by
  rcases p with _ | ⟨_ | _⟩ | _ | _ | ⟨i, _ | _⟩ | i | ⟨i, _ | _⟩ | ⟨_ | _⟩ | _ | ⟨_ | _⟩ | q | _ <;>
    simp [writeEffect]

@[simp] theorem writeCheck_txn (s : State) :
    (writeCheck s).txn = { s.txn with ok := s.txn.ok && ackOk s.wb.ack } := by
  simp [writeCheck]

@[simp] theorem writeEffect_desc (b : Byte) (p : WritePos) (s : State) : (writeEffect b p s).txn.desc = s.txn.desc := by
  rcases p with _ | ⟨_ | _⟩ | _ | _ | ⟨i, _ | _⟩ | i | ⟨i, _ | _⟩ | ⟨_ | _⟩ | _ | ⟨_ | _⟩ | q | _ <;>
    simp [writeEffect]

@[simp] theorem writeEffect_args (b : Byte) (p : WritePos) (s : State) : (writeEffect b p s).txn.args = s.txn.args := by
  rcases p with _ | ⟨_ | _⟩ | _ | _ | ⟨i, _ | _⟩ | i | ⟨i, _ | _⟩ | ⟨_ | _⟩ | _ | ⟨_ | _⟩ | q | _ <;>
    simp [writeEffect]

@[simp] theorem writeEffect_results (b : Byte) (p : WritePos) (s : State) :
    (writeEffect b p s).txn.results = s.txn.results := by
  rcases p with _ | ⟨_ | _⟩ | _ | _ | ⟨i, _ | _⟩ | i | ⟨i, _ | _⟩ | ⟨_ | _⟩ | _ | ⟨_ | _⟩ | q | _ <;>
    simp [writeEffect]

/-- Of `write_byte`'s primitives only `WB_CHECK` touches the transaction registers (R156, R167). -/
theorem writeEffect_txn_of_ne_check (b : Byte) (p : WritePos) (s : State) (h : p ≠ .check) :
    (writeEffect b p s).txn = s.txn := by
  rcases p with _ | ⟨_ | _⟩ | _ | _ | ⟨i, _ | _⟩ | i | ⟨i, _ | _⟩ | ⟨_ | _⟩ | _ | ⟨_ | _⟩ | q | _ <;>
    simp [writeEffect] at h ⊢

@[simp] theorem takeResponse_desc (p : ReadPos) (s : State) : (takeResponse p s).txn.desc = s.txn.desc := by
  unfold takeResponse; split <;> rfl

@[simp] theorem takeResponse_args (p : ReadPos) (s : State) : (takeResponse p s).txn.args = s.txn.args := by
  unfold takeResponse; split <;> rfl

@[simp] theorem takeResponse_ok (p : ReadPos) (s : State) : (takeResponse p s).txn.ok = s.txn.ok := by
  unfold takeResponse; split <;> rfl

theorem takeResponse_results (p : ReadPos) (s : State) :
    (takeResponse p s).txn.results = if p = .pulseRel then s.txn.results ++ [s.rb.byte] else s.txn.results := by
  unfold takeResponse; split <;> rfl

@[simp] theorem advance_cfg (d : Bool) (s : State) : (advance d s).cfg = s.cfg := by unfold advance; split <;> rfl
@[simp] theorem advance_link (d : Bool) (s : State) : (advance d s).link = s.link := by unfold advance; split <;> rfl
@[simp] theorem advance_configured (d : Bool) (s : State) : (advance d s).configured = s.configured := by unfold advance; split <;> rfl
@[simp] theorem advance_frame (d : Bool) (s : State) : (advance d s).frame = s.frame := by unfold advance; split <;> rfl
@[simp] theorem advance_gate (d : Bool) (s : State) : (advance d s).gate = s.gate := by unfold advance; split <;> rfl
@[simp] theorem advance_edgePending (d : Bool) (s : State) : (advance d s).edgePending = s.edgePending := by unfold advance; split <;> rfl
@[simp] theorem advance_clkDevLow (d : Bool) (s : State) : (advance d s).clkDevLow = s.clkDevLow := by unfold advance; split <;> rfl
@[simp] theorem advance_dataDevLow (d : Bool) (s : State) : (advance d s).dataDevLow = s.dataDevLow := by unfold advance; split <;> rfl
@[simp] theorem advance_inTxn (d : Bool) (s : State) : (advance d s).inTxn = s.inTxn := by unfold advance; split <;> rfl
@[simp] theorem advance_inHandler (d : Bool) (s : State) : (advance d s).inHandler = s.inHandler := by unfold advance; split <;> rfl
@[simp] theorem advance_now (d : Bool) (s : State) : (advance d s).now = s.now := by unfold advance; split <;> rfl
@[simp] theorem advance_op (d : Bool) (s : State) : (advance d s).op = s.op := by unfold advance; split <;> rfl
@[simp] theorem advance_suspended (d : Bool) (s : State) : (advance d s).suspended = s.suspended := by unfold advance; split <;> rfl
@[simp] theorem advance_syn (d : Bool) (s : State) : (advance d s).syn = s.syn := by unfold advance; split <;> rfl
@[simp] theorem advance_rxStream (d : Bool) (s : State) : (advance d s).rxStream = s.rxStream := by unfold advance; split <;> rfl
@[simp] theorem advance_resultStream (d : Bool) (s : State) : (advance d s).resultStream = s.resultStream := by unfold advance; split <;> rfl
@[simp] theorem advance_inputs (d : Bool) (s : State) : (advance d s).inputs = s.inputs := by unfold advance; split <;> rfl
@[simp] theorem advance_choices (d : Bool) (s : State) : (advance d s).choices = s.choices := by unfold advance; split <;> rfl
@[simp] theorem advance_txn (d : Bool) (s : State) : (advance d s).txn = s.txn := by unfold advance; split <;> rfl
@[simp] theorem advance_wb (d : Bool) (s : State) : (advance d s).wb = s.wb := by unfold advance; split <;> rfl
@[simp] theorem advance_rb (d : Bool) (s : State) : (advance d s).rb = s.rb := by unfold advance; split <;> rfl
@[simp] theorem advance_clkPad (d : Bool) (s : State) : (advance d s).clkPad = s.clkPad := by unfold advance; split <;> rfl
@[simp] theorem advance_dataPad (d : Bool) (s : State) : (advance d s).dataPad = s.dataPad := by unfold advance; split <;> rfl
@[simp] theorem advance_waitT0 (d : Bool) (s : State) : (advance d s).waitT0 = s.waitT0 := by unfold advance; split <;> rfl
@[simp] theorem advance_draws (d : Bool) (s : State) : (advance d s).draws = s.draws := by unfold advance; split <;> rfl
@[simp] theorem advance_diagLog (d : Bool) (s : State) : (advance d s).diagLog = s.diagLog := by unfold advance; split <;> rfl

/-- An advance leaves the position exactly when the primitive is done (R37). -/
theorem advance_seq (d : Bool) (s : State) :
    (advance d s).seq = if d then s.seq.next (sendCount s.txn.desc) (recvCount s.txn.desc) else s.seq := by
  unfold advance; split <;> rfl

/-- What an engine step that answers a next state has done: idled, gone from `IDLE` to `CT_BEGIN`, begun or ended a
transaction, or taken a primitive of a write or of a response (R37, R165, R173). -/
theorem engineStep_cases {s t : State} (h : engineStep s = .next t) :
    (s.seq = .idle ∧ s.op.todo = [] ∧ t = s) ∨
    (s.seq = .idle ∧ s.op.todo ≠ [] ∧ t = { s with seq := .ctBegin }) ∨
    (s.seq = .ctBegin ∧ s.op.todo = [] ∧ t = { s with seq := .idle }) ∨
    (∃ it rest, s.seq = .ctBegin ∧ s.op.todo = it :: rest ∧ t = ctBegin it { s with op := { s.op with todo := rest } }) ∨
    (∃ p, s.seq = .ctOpcode p ∧ t = advance (writeDone p s) (writeEffect (opcodeByte s.txn.desc) p s)) ∨
    (∃ i p b, s.seq = .ctArg i p ∧ s.txn.args[i]? = some b ∧ t = advance (writeDone p s) (writeEffect b p s)) ∨
    (∃ j p, s.seq = .ctResp j p ∧ t = advance (readDone p s) (takeResponse p (readEffect p s))) ∨
    (s.seq = .ctEnd ∧ ctEnd s = .next t) := by
  unfold engineStep at h
  split at h
  · next hs =>
    cases ht : s.op.todo with
    | nil => simp [ht] at h; exact .inl ⟨hs, rfl, h.symm⟩
    | cons a l => simp [ht] at h; exact .inr (.inl ⟨hs, by simp, h.symm⟩)
  · next hs =>
    split at h
    · next ht => injection h with h; exact .inr (.inr (.inl ⟨hs, ht, h.symm⟩))
    · next it rest ht =>
      injection h with h; exact .inr (.inr (.inr (.inl ⟨it, rest, hs, ht, h.symm⟩)))
  · next p hs => injection h with h; exact .inr (.inr (.inr (.inr (.inl ⟨p, hs, h.symm⟩))))
  · next i p hs =>
    obtain ⟨b, hb, h⟩ := readElement_next h
    injection h with h; exact .inr (.inr (.inr (.inr (.inr (.inl ⟨i, p, b, hs, hb, h.symm⟩)))))
  · next j p hs =>
    injection h with h; exact .inr (.inr (.inr (.inr (.inr (.inr (.inl ⟨j, p, hs, h.symm⟩))))))
  · next hs => exact .inr (.inr (.inr (.inr (.inr (.inr (.inr ⟨hs, h⟩))))))

/-- What `CT_END` has done when it answers a next state (R169, R217). -/
theorem ctEnd_cases {s t : State} (h : ctEnd s = .next t) :
    ∃ syn, s.syn.after s.op.post s.txn.results = some syn ∧
      t = returnResult { s with inTxn := false, gate := true, seq := .idle, syn := syn,
                                op := { s.op with ok := s.op.ok && s.txn.ok, post := .nothing } } := by
  obtain ⟨syn, hs, h⟩ := readElement_next h
  injection h with h; exact ⟨syn, hs, h.symm⟩

end Sys2Proof.Machine
end

