-- ==== Sys2Proof/Laws/Operands.lean ====
section
/-! SUPPORT. The operand forms evaluated: the fields of the seven listed descriptors, and the assembly of a byte. -/

namespace Sys2Proof.Machine

/-! ## The fields of the listed descriptors (R71, R80) -/

@[simp] theorem sendCount_descSetscale11 : sendCount descSetscale11 = 0 := by decide
@[simp] theorem recvCount_descSetscale11 : recvCount descSetscale11 = 0 := by decide
@[simp] theorem opcodeByte_descSetscale11 : opcodeByte descSetscale11 = 0xE6#8 := by decide
@[simp] theorem sendCount_descSetrate : sendCount descSetrate = 1 := by decide
@[simp] theorem recvCount_descSetrate : recvCount descSetrate = 0 := by decide
@[simp] theorem opcodeByte_descSetrate : opcodeByte descSetrate = 0xF3#8 := by decide
@[simp] theorem sendCount_descEnable : sendCount descEnable = 0 := by decide
@[simp] theorem recvCount_descEnable : recvCount descEnable = 0 := by decide
@[simp] theorem opcodeByte_descEnable : opcodeByte descEnable = 0xF4#8 := by decide
@[simp] theorem sendCount_descDisable : sendCount descDisable = 0 := by decide
@[simp] theorem recvCount_descDisable : recvCount descDisable = 0 := by decide
@[simp] theorem opcodeByte_descDisable : opcodeByte descDisable = 0xF5#8 := by decide
@[simp] theorem sendCount_descResetBat : sendCount descResetBat = 0 := by decide
@[simp] theorem recvCount_descResetBat : recvCount descResetBat = 2 := by decide
@[simp] theorem opcodeByte_descResetBat : opcodeByte descResetBat = 0xFF#8 := by decide
@[simp] theorem sendCount_descSetres : sendCount descSetres = 1 := by decide
@[simp] theorem recvCount_descSetres : recvCount descSetres = 0 := by decide
@[simp] theorem opcodeByte_descSetres : opcodeByte descSetres = 0xE8#8 := by decide
@[simp] theorem sendCount_descGetinfo : sendCount descGetinfo = 0 := by decide
@[simp] theorem recvCount_descGetinfo : recvCount descGetinfo = 3 := by decide
@[simp] theorem opcodeByte_descGetinfo : opcodeByte descGetinfo = 0xE9#8 := by decide

/-! ## Assembling a byte (R125, R132, R159) -/

/-- Putting bit `n` on a byte whose bits from `n` on are 0 leaves the bits from `n + 1` on 0, and folds the bit into the
byte's parity (R132). -/
theorem putBit_shift {a : Byte} {n : Nat} (d : Level) (hn : n ≤ 7) (h : a >>> n = 0#8) :
    putBit a n d >>> (n + 1) = 0#8 ∧ byteParity (putBit a n d) = (byteParity a ^^ d) := by
  have : n = 0 ∨ n = 1 ∨ n = 2 ∨ n = 3 ∨ n = 4 ∨ n = 5 ∨ n = 6 ∨ n = 7 := by omega
  revert a d
  rcases this with h | h | h | h | h | h | h | h <;> subst h <;> decide

end Sys2Proof.Machine
end

