-- ==== Sys2Proof/Laws/PerInstr.lean ====
section
/-! SUPPORT. What is said of every operation as syntax, one lemma per constructor: the series of transactions that an
operation stands for is well formed. -/

namespace Sys2Proof.Laws.Expansion

open Sys2Proof Sys2Proof.Machine

/-- Every transaction of the operation's series has as many arguments as its descriptor announces (R171), and what is
kept at its end fits the number of its responses (R212, R215). -/
def Statement (i : Instr) : Prop :=
  i.WellFormed → ∀ (cfg : Config.Params), ∀ it ∈ Machine.expansion cfg i,
    it.args.length = sendCount it.desc ∧ it.post.counted (recvCount it.desc)

theorem setscale11 : Statement (.setscale11) := by
  intro _ cfg
  simp [Machine.expansion, item, Post.counted]

theorem setrate (r : Byte) : Statement (.setrate r) := by
  intro _ cfg
  simp [Machine.expansion, item, Post.counted]

theorem enable : Statement (.enable) := by
  intro _ cfg
  simp [Machine.expansion, item, Post.counted]

theorem disable : Statement (.disable) := by
  intro _ cfg
  simp [Machine.expansion, item, Post.counted]

theorem resetBat : Statement (.resetBat) := by
  intro _ cfg
  simp [Machine.expansion, item, Post.counted]

theorem setres (a : Byte) : Statement (.setres a) := by
  intro _ cfg
  simp [Machine.expansion, item, Post.counted]

theorem getinfo : Statement (.getinfo) := by
  intro _ cfg
  simp [Machine.expansion, item, Post.counted]

theorem command (desc : Descriptor) (args : List Byte) : Statement (.command desc args) := by
  intro hw cfg
  have : args.length = sendCount desc := by simpa [Instr.WellFormed, Instr.wellFormed] using hw
  simp [Machine.expansion, item, Post.counted, this]

theorem encoded (b : Byte) : Statement (.encoded b) := by
  intro _ cfg
  simp [Machine.expansion, encodedItems, item, Post.counted]

theorem query (c : Byte) : Statement (.query c) := by
  intro _ cfg
  simp [Machine.expansion, queryItems, encodedItems, item, Post.counted]

theorem setMode (m r : Byte) : Statement (.setMode m r) := by
  intro _ cfg
  simp [Machine.expansion, setModeItems, encodedItems, item, Post.counted]

theorem modeProgram : Statement (.modeProgram) := by
  intro _ cfg
  simp [Machine.expansion, modeProgramItems, setModeItems, encodedItems, item, Post.counted]

theorem synInit : Statement (.synInit) := by
  intro _ cfg
  simp [Machine.expansion, synInitItems, queryItems, modeProgramItems, setModeItems, encodedItems, item, Post.counted]

end Sys2Proof.Laws.Expansion
end

