-- ==== Sys2Proof/Laws/Step.lean ====
section
/-! SUPPORT. What a handler step, a request and a step of the machine can do, and runs over a list of events. -/

namespace Sys2Proof.Machine

/-! ### The start bit writes `bit_index` and the log (R124) -/

@[simp] theorem takeStart_cfg (d : Level) (s : State) : (takeStart d s).cfg = s.cfg := by simp [takeStart]
@[simp] theorem takeStart_link (d : Level) (s : State) : (takeStart d s).link = s.link := by simp [takeStart]
@[simp] theorem takeStart_configured (d : Level) (s : State) : (takeStart d s).configured = s.configured := by simp [takeStart]
@[simp] theorem takeStart_gate (d : Level) (s : State) : (takeStart d s).gate = s.gate := by simp [takeStart]
@[simp] theorem takeStart_edgePending (d : Level) (s : State) : (takeStart d s).edgePending = s.edgePending := by simp [takeStart]
@[simp] theorem takeStart_clkPad (d : Level) (s : State) : (takeStart d s).clkPad = s.clkPad := by simp [takeStart]
@[simp] theorem takeStart_dataPad (d : Level) (s : State) : (takeStart d s).dataPad = s.dataPad := by simp [takeStart]
@[simp] theorem takeStart_clkDevLow (d : Level) (s : State) : (takeStart d s).clkDevLow = s.clkDevLow := by simp [takeStart]
@[simp] theorem takeStart_dataDevLow (d : Level) (s : State) : (takeStart d s).dataDevLow = s.dataDevLow := by simp [takeStart]
@[simp] theorem takeStart_inTxn (d : Level) (s : State) : (takeStart d s).inTxn = s.inTxn := by simp [takeStart]
@[simp] theorem takeStart_inHandler (d : Level) (s : State) : (takeStart d s).inHandler = s.inHandler := by simp [takeStart]
@[simp] theorem takeStart_txn (d : Level) (s : State) : (takeStart d s).txn = s.txn := by simp [takeStart]
@[simp] theorem takeStart_wb (d : Level) (s : State) : (takeStart d s).wb = s.wb := by simp [takeStart]
@[simp] theorem takeStart_rb (d : Level) (s : State) : (takeStart d s).rb = s.rb := by simp [takeStart]
@[simp] theorem takeStart_waitT0 (d : Level) (s : State) : (takeStart d s).waitT0 = s.waitT0 := by simp [takeStart]
@[simp] theorem takeStart_now (d : Level) (s : State) : (takeStart d s).now = s.now := by simp [takeStart]
@[simp] theorem takeStart_seq (d : Level) (s : State) : (takeStart d s).seq = s.seq := by simp [takeStart]
@[simp] theorem takeStart_op (d : Level) (s : State) : (takeStart d s).op = s.op := by simp [takeStart]
@[simp] theorem takeStart_suspended (d : Level) (s : State) : (takeStart d s).suspended = s.suspended := by simp [takeStart]
@[simp] theorem takeStart_syn (d : Level) (s : State) : (takeStart d s).syn = s.syn := by simp [takeStart]
@[simp] theorem takeStart_resultStream (d : Level) (s : State) : (takeStart d s).resultStream = s.resultStream := by simp [takeStart]
@[simp] theorem takeStart_inputs (d : Level) (s : State) : (takeStart d s).inputs = s.inputs := by simp [takeStart]
@[simp] theorem takeStart_draws (d : Level) (s : State) : (takeStart d s).draws = s.draws := by simp [takeStart]
@[simp] theorem takeStart_choices (d : Level) (s : State) : (takeStart d s).choices = s.choices := by simp [takeStart]
@[simp] theorem takeStart_rxStream (d : Level) (s : State) : (takeStart d s).rxStream = s.rxStream := by simp [takeStart]

/-! ### A payload bit writes the frame registers (R125) -/

@[simp] theorem takePayload_cfg (d : Level) (s : State) : (takePayload d s).cfg = s.cfg := rfl
@[simp] theorem takePayload_link (d : Level) (s : State) : (takePayload d s).link = s.link := rfl
@[simp] theorem takePayload_configured (d : Level) (s : State) : (takePayload d s).configured = s.configured := rfl
@[simp] theorem takePayload_gate (d : Level) (s : State) : (takePayload d s).gate = s.gate := rfl
@[simp] theorem takePayload_edgePending (d : Level) (s : State) : (takePayload d s).edgePending = s.edgePending := rfl
@[simp] theorem takePayload_clkPad (d : Level) (s : State) : (takePayload d s).clkPad = s.clkPad := rfl
@[simp] theorem takePayload_dataPad (d : Level) (s : State) : (takePayload d s).dataPad = s.dataPad := rfl
@[simp] theorem takePayload_clkDevLow (d : Level) (s : State) : (takePayload d s).clkDevLow = s.clkDevLow := rfl
@[simp] theorem takePayload_dataDevLow (d : Level) (s : State) : (takePayload d s).dataDevLow = s.dataDevLow := rfl
@[simp] theorem takePayload_inTxn (d : Level) (s : State) : (takePayload d s).inTxn = s.inTxn := rfl
@[simp] theorem takePayload_inHandler (d : Level) (s : State) : (takePayload d s).inHandler = s.inHandler := rfl
@[simp] theorem takePayload_txn (d : Level) (s : State) : (takePayload d s).txn = s.txn := rfl
@[simp] theorem takePayload_wb (d : Level) (s : State) : (takePayload d s).wb = s.wb := rfl
@[simp] theorem takePayload_rb (d : Level) (s : State) : (takePayload d s).rb = s.rb := rfl
@[simp] theorem takePayload_waitT0 (d : Level) (s : State) : (takePayload d s).waitT0 = s.waitT0 := rfl
@[simp] theorem takePayload_now (d : Level) (s : State) : (takePayload d s).now = s.now := rfl
@[simp] theorem takePayload_seq (d : Level) (s : State) : (takePayload d s).seq = s.seq := rfl
@[simp] theorem takePayload_op (d : Level) (s : State) : (takePayload d s).op = s.op := rfl
@[simp] theorem takePayload_suspended (d : Level) (s : State) : (takePayload d s).suspended = s.suspended := rfl
@[simp] theorem takePayload_syn (d : Level) (s : State) : (takePayload d s).syn = s.syn := rfl
@[simp] theorem takePayload_resultStream (d : Level) (s : State) : (takePayload d s).resultStream = s.resultStream := rfl
@[simp] theorem takePayload_inputs (d : Level) (s : State) : (takePayload d s).inputs = s.inputs := rfl
@[simp] theorem takePayload_draws (d : Level) (s : State) : (takePayload d s).draws = s.draws := rfl
@[simp] theorem takePayload_choices (d : Level) (s : State) : (takePayload d s).choices = s.choices := rfl
@[simp] theorem takePayload_rxStream (d : Level) (s : State) : (takePayload d s).rxStream = s.rxStream := rfl
@[simp] theorem takePayload_diagLog (d : Level) (s : State) : (takePayload d s).diagLog = s.diagLog := rfl

/-! ### The parity bit writes `bit_index`, `running_parity` and the log (R126) -/

@[simp] theorem takeParity_cfg (d : Level) (s : State) : (takeParity d s).cfg = s.cfg := by simp [takeParity]
@[simp] theorem takeParity_link (d : Level) (s : State) : (takeParity d s).link = s.link := by simp [takeParity]
@[simp] theorem takeParity_configured (d : Level) (s : State) : (takeParity d s).configured = s.configured := by simp [takeParity]
@[simp] theorem takeParity_gate (d : Level) (s : State) : (takeParity d s).gate = s.gate := by simp [takeParity]
@[simp] theorem takeParity_edgePending (d : Level) (s : State) : (takeParity d s).edgePending = s.edgePending := by simp [takeParity]
@[simp] theorem takeParity_clkPad (d : Level) (s : State) : (takeParity d s).clkPad = s.clkPad := by simp [takeParity]
@[simp] theorem takeParity_dataPad (d : Level) (s : State) : (takeParity d s).dataPad = s.dataPad := by simp [takeParity]
@[simp] theorem takeParity_clkDevLow (d : Level) (s : State) : (takeParity d s).clkDevLow = s.clkDevLow := by simp [takeParity]
@[simp] theorem takeParity_dataDevLow (d : Level) (s : State) : (takeParity d s).dataDevLow = s.dataDevLow := by simp [takeParity]
@[simp] theorem takeParity_inTxn (d : Level) (s : State) : (takeParity d s).inTxn = s.inTxn := by simp [takeParity]
@[simp] theorem takeParity_inHandler (d : Level) (s : State) : (takeParity d s).inHandler = s.inHandler := by simp [takeParity]
@[simp] theorem takeParity_txn (d : Level) (s : State) : (takeParity d s).txn = s.txn := by simp [takeParity]
@[simp] theorem takeParity_wb (d : Level) (s : State) : (takeParity d s).wb = s.wb := by simp [takeParity]
@[simp] theorem takeParity_rb (d : Level) (s : State) : (takeParity d s).rb = s.rb := by simp [takeParity]
@[simp] theorem takeParity_waitT0 (d : Level) (s : State) : (takeParity d s).waitT0 = s.waitT0 := by simp [takeParity]
@[simp] theorem takeParity_now (d : Level) (s : State) : (takeParity d s).now = s.now := by simp [takeParity]
@[simp] theorem takeParity_seq (d : Level) (s : State) : (takeParity d s).seq = s.seq := by simp [takeParity]
@[simp] theorem takeParity_op (d : Level) (s : State) : (takeParity d s).op = s.op := by simp [takeParity]
@[simp] theorem takeParity_suspended (d : Level) (s : State) : (takeParity d s).suspended = s.suspended := by simp [takeParity]
@[simp] theorem takeParity_syn (d : Level) (s : State) : (takeParity d s).syn = s.syn := by simp [takeParity]
@[simp] theorem takeParity_resultStream (d : Level) (s : State) : (takeParity d s).resultStream = s.resultStream := by simp [takeParity]
@[simp] theorem takeParity_inputs (d : Level) (s : State) : (takeParity d s).inputs = s.inputs := by simp [takeParity]
@[simp] theorem takeParity_draws (d : Level) (s : State) : (takeParity d s).draws = s.draws := by simp [takeParity]
@[simp] theorem takeParity_choices (d : Level) (s : State) : (takeParity d s).choices = s.choices := by simp [takeParity]
@[simp] theorem takeParity_rxStream (d : Level) (s : State) : (takeParity d s).rxStream = s.rxStream := by simp [takeParity]

@[simp] theorem takeStart_frame (d : Level) (s : State) : (takeStart d s).frame = { s.frame with bitIndex := 1#4 } := by
  simp [takeStart]

@[simp] theorem takePayload_frame (d : Level) (s : State) :
    (takePayload d s).frame =
      { bitIndex := s.frame.bitIndex + 1#4
        accumulatedByte := putBit s.frame.accumulatedByte (s.frame.bitIndex.toNat - 1) d
        runningParity := s.frame.runningParity ^^ d } := rfl

@[simp] theorem takeParity_frame (d : Level) (s : State) :
    (takeParity d s).frame = { s.frame with bitIndex := 10#4, runningParity := s.frame.runningParity ^^ d } := by
  simp [takeParity]

/-- What consuming a bit has done, by frame position (R123-R128). -/
theorem consumeBit_cases {c : Option Request} {d : Level} {s t : State} (h : consumeBit c d s = .next t) :
    (s.frame.bitIndex.toNat = 0 ∧ t = takeStart d s) ∨
    (1 ≤ s.frame.bitIndex.toNat ∧ s.frame.bitIndex.toNat ≤ 8 ∧ t = takePayload d s) ∨
    (s.frame.bitIndex.toNat = 9 ∧ t = takeParity d s) ∨
    (s.frame.bitIndex.toNat = 10 ∧ c = none ∧
      t = { check (stopOk d) .stopBitError .async (.byte s.frame.accumulatedByte) s with
            rxStream := s.rxStream ++ [s.frame.accumulatedByte], frame := Frame.idle }) := by
  unfold consumeBit at h
  split at h
  · next h0 => injection h with h; exact .inl ⟨h0, h.symm⟩
  split at h
  · next h0 h8 => injection h with h; exact .inr (.inl ⟨by omega, h8, h.symm⟩)
  split at h
  · next h9 => injection h with h; exact .inr (.inr (.inl ⟨h9, h.symm⟩))
  split at h
  · next h10 =>
    cases c with
    | none =>
      simp only [takeStop, deliver] at h
      injection h with h
      refine .inr (.inr (.inr ⟨h10, rfl, ?_⟩))
      rw [← h]
      simp
    | some r => simp [takeStop, deliver] at h
  · cases h

/-- What a handler step that answers a next state has done: nothing, when it is not enabled; filtered a spurious trigger;
or consumed one bit (R121, R122, R129). -/
theorem handlerStep_cases {c : Option Request} {s t : State} (h : handlerStep c s = .next t) :
    (s.handlerEnabled = false ∧ t = s) ∨
    (s.handlerEnabled = true ∧ sampleLevel .clk (enterHandler s) = HIGH ∧
      t = leaveHandler (sampled .clk (enterHandler s))) ∨
    (s.handlerEnabled = true ∧ sampleLevel .clk (enterHandler s) = LOW ∧
      ∃ u, consumeBit c (sampleLevel .data (sampled .clk (enterHandler s)))
          (sampled .data (sampled .clk (enterHandler s))) = .next u ∧ t = leaveHandler u) := by
  unfold handlerStep at h
  split at h
  · next he =>
    split at h
    · next u hu =>
      injection h with h
      unfold receiveStep at hu
      split at hu
      · next hc => injection hu with hu; exact .inr (.inl ⟨he, hc, by rw [← h, ← hu]⟩)
      · next hc => exact .inr (.inr ⟨he, by simpa using hc, u, hu, h.symm⟩)
    · cases h
    · cases h
  · next he => injection h with h; exact .inl ⟨by simpa using he, h.symm⟩

/-- What a request that answers a next state has done: started an operation's expansion, or set the block up
(R165, R210-R215, R280). -/
theorem requestStep_cases {r : Request} {s t : State} (h : requestStep r s = .next t) :
    (∃ i it rest, s.Ready ∧ (i.WellFormed ∧ ∃ w, r = .op w ∧ decode w = .ok i) ∧ expansion s.cfg i = it :: rest ∧
      t = ctBegin it { suspend s with op := { todo := rest, ok := true, post := .nothing } }) ∨
    (∃ c d k, (s.inHandler = false ∧ r = .begin c d k) ∧ s.inTxn = false ∧ c ≠ d ∧ t = setUp c d k s) := by
  have exec_case : ∀ i : Instr, exec i s = .next t → i.WellFormed →
      ∃ it rest, s.Ready ∧ expansion s.cfg i = it :: rest ∧
        t = ctBegin it { suspend s with op := { todo := rest, ok := true, post := .nothing } } := by
    intro i hi wf
    obtain ⟨it, rest, he⟩ := expansion_cons s.cfg i
    rw [exec_eq_startOperation wf, he] at hi
    obtain ⟨hr, ht⟩ := startOperation_next hi
    exact ⟨it, rest, hr, he, ht⟩
  cases r with
  | op w =>
    simp only [requestStep] at h
    split at h
    · next i hd =>
      have wf : i.WellFormed := by
        cases i with
        | command desc args =>
          by_cases hl : args.length = sendCount desc
          · simp [Instr.WellFormed, Instr.wellFormed, hl]
          · simp only [exec, execCommand, if_neg hl] at h
            cases (admit_next h).2
        | _ => rfl
      obtain ⟨it, rest, hr, he, ht⟩ := exec_case i h wf
      exact .inl ⟨i, it, rest, hr, ⟨wf, w, rfl, hd⟩, he, ht⟩
    · next e _ =>
      cases e
      cases (admit_next (k := fun _ => .refused .argCountMismatch) h).2
  | begin c d k =>
    simp only [requestStep, execBegin] at h
    split at h; · cases h
    split at h; · cases h
    split at h; · cases h
    next h1 h2 h3 =>
      injection h with h
      exact .inr ⟨c, d, k, ⟨by simpa using h1, rfl⟩, by simpa using h2, h3, h.symm⟩
  | writeByte b => simp only [requestStep, notAnOperation] at h; split at h <;> cases h
  | readByteSync => simp only [requestStep, notAnOperation] at h; split at h <;> cases h
  | link p => simp only [requestStep, notAnOperation] at h; split at h <;> cases h

/-- What a read of the snapshot that answers has done: nothing (R38). -/
theorem readSnapshot_next {s t : State} (h : readSnapshot s = .next t) : t = s := by
  obtain ⟨_, -, h⟩ := readElement_next h
  injection h with h; exact h.symm

/-! ## What no event touches -/

/-- No agent's step writes `cfg`. -/
theorem applyEvent_cfg {e : Event} {s t : State} (h : applyEvent e s = .next t) : t.cfg = s.cfg := by
  cases e with
  | device l low => injection h with h; simp [← h]
  | time d => injection h with h; simp [← h]
  | engine =>
    obtain ⟨-, -, h⟩ | ⟨-, -, h⟩ | ⟨-, -, h⟩ | ⟨it, rest, -, -, h⟩ | ⟨p, -, h⟩ | ⟨i, p, b, -, -, h⟩ | ⟨j, p, -, h⟩ | ⟨-, h⟩ :=
      engineStep_cases h
    all_goals first | simp [h] | (obtain ⟨syn, -, h⟩ := ctEnd_cases h; simp [h])
  | handler c =>
    obtain ⟨-, h⟩ | ⟨-, -, h⟩ | ⟨-, -, u, hu, h⟩ := handlerStep_cases h
    · simp [h]
    · simp [h]
    · obtain ⟨-, hu⟩ | ⟨-, -, hu⟩ | ⟨-, hu⟩ | ⟨-, -, hu⟩ := consumeBit_cases hu <;> simp [h, hu]
  | caller r =>
    obtain ⟨i, it, rest, -, -, -, h⟩ | ⟨c, d, k, -, -, -, h⟩ := requestStep_cases h <;> simp [h]
  | readSnapshot => rw [readSnapshot_next h]

/-- No agent's step writes `inputs`. -/
theorem applyEvent_inputs {e : Event} {s t : State} (h : applyEvent e s = .next t) : t.inputs = s.inputs := by
  cases e with
  | device l low => injection h with h; simp [← h]
  | time d => injection h with h; simp [← h]
  | engine =>
    obtain ⟨-, -, h⟩ | ⟨-, -, h⟩ | ⟨-, -, h⟩ | ⟨it, rest, -, -, h⟩ | ⟨p, -, h⟩ | ⟨i, p, b, -, -, h⟩ | ⟨j, p, -, h⟩ | ⟨-, h⟩ :=
      engineStep_cases h
    all_goals first | simp [h] | (obtain ⟨syn, -, h⟩ := ctEnd_cases h; simp [h])
  | handler c =>
    obtain ⟨-, h⟩ | ⟨-, -, h⟩ | ⟨-, -, u, hu, h⟩ := handlerStep_cases h
    · simp [h]
    · simp [h]
    · obtain ⟨-, hu⟩ | ⟨-, -, hu⟩ | ⟨-, hu⟩ | ⟨-, -, hu⟩ := consumeBit_cases hu <;> simp [h, hu]
  | caller r =>
    obtain ⟨i, it, rest, -, -, -, h⟩ | ⟨c, d, k, -, -, -, h⟩ := requestStep_cases h <;> simp [h]
  | readSnapshot => rw [readSnapshot_next h]

/-- No agent's step writes `choices`. -/
theorem applyEvent_choices {e : Event} {s t : State} (h : applyEvent e s = .next t) : t.choices = s.choices := by
  cases e with
  | device l low => injection h with h; simp [← h]
  | time d => injection h with h; simp [← h]
  | engine =>
    obtain ⟨-, -, h⟩ | ⟨-, -, h⟩ | ⟨-, -, h⟩ | ⟨it, rest, -, -, h⟩ | ⟨p, -, h⟩ | ⟨i, p, b, -, -, h⟩ | ⟨j, p, -, h⟩ | ⟨-, h⟩ :=
      engineStep_cases h
    all_goals first | simp [h] | (obtain ⟨syn, -, h⟩ := ctEnd_cases h; simp [h])
  | handler c =>
    obtain ⟨-, h⟩ | ⟨-, -, h⟩ | ⟨-, -, u, hu, h⟩ := handlerStep_cases h
    · simp [h]
    · simp [h]
    · obtain ⟨-, hu⟩ | ⟨-, -, hu⟩ | ⟨-, hu⟩ | ⟨-, -, hu⟩ := consumeBit_cases hu <;> simp [h, hu]
  | caller r =>
    obtain ⟨i, it, rest, -, -, -, h⟩ | ⟨c, d, k, -, -, -, h⟩ := requestStep_cases h <;> simp [h]
  | readSnapshot => rw [readSnapshot_next h]

/-! ## Runs -/

/-- A run over no events. -/
@[simp] theorem afterEvents_nil (s : State) : afterEvents [] s = .next s := rfl

/-- The first `n + 1` events are the first `n` and then one more. -/
theorem firstEvents_succ (schedule : Nat → Event) (n : Nat) :
    firstEvents schedule (n + 1) = firstEvents schedule n ++ [schedule n] := by
  simp [firstEvents, List.range_succ]

/-- A run whose first event answers a next state goes on from there, after the edge detector's look (R63, R109). -/
theorem afterEvents_cons {e : Event} {l : List Event} {s u : State} (h : applyEvent e { s with inputs := [] } = .next u) :
    afterEvents (e :: l) s = afterEvents l (latchEdge { s with inputs := [] } u) := by
  have hs : step { s with inputs := [e] } = .next (latchEdge { s with inputs := [] } u) := by
    rw [step_listed (s := { s with inputs := [e] }) rfl, h]; rfl
  rw [afterEvents, hs]

/-- A run over two lists is a run over the first, then a run over the second. -/
theorem afterEvents_append {l m : List Event} {s t : State} (h : afterEvents l s = .next t) :
    afterEvents (l ++ m) s = afterEvents m t := by
  induction l generalizing s with
  | nil => injection h with h; rw [h]; rfl
  | cons e l ih =>
    rw [List.cons_append, afterEvents]
    rw [afterEvents] at h
    split at h
    · exact ih h
    · cases h
    · cases h

end Sys2Proof.Machine
end

