-- ==== Sys2Proof/Tests/Slice0.lean ====
section
/-! SUPPORT. The model's own tests, each on expected results from the spec (the vectors of spec/95_test_vectors.md and the
tables of spec/30_encoding.md), and for each statement with hypotheses a concrete state and operands that meet them. -/

namespace Sys2Proof.Tests

open Sys2Proof Sys2Proof.Machine

/-! ## A small state -/

/-- Parameters with every open value chosen, for tests alone: the conventions of spec/95_test_vectors.md. -/
def params : Config.Params :=
  { tReadyPulse := 10, extPullup := true, edgeLatchWhileMasked := false, qVersion := 0x03#8, qExtCaps := 0xC5#8,
    qResolution := 0x1B#8, qClickpad := 0xE4#8 }

/-- The machine after `begin`, with those parameters. -/
def ready : State := { State.reset with cfg := params }

/-- The descriptor `0x12AB` in progress at a position, with argument `0x55` (V-T9). -/
def busy (q : Machine.Seq) (results : List Byte) : State :=
  { ready with gate := false, inTxn := true, txn := { desc := 0x12AB#16, args := [0x55#8], results := results, ok := true }, seq := q }

/-- Between two transactions of a composite, of which a `GETINFO` is left. -/
def gap : State := { ready with op := { todo := [item descGetinfo []], ok := true, post := .nothing } }

/-- A handler step about to consume the bit that `dataLow` says, at a frame position. -/
def edge (index : BitVec 4) (acc : Byte) (par dataLow : Bool) : State :=
  { ready with edgePending := true, clkDevLow := true, dataDevLow := dataLow,
               frame := { bitIndex := index, accumulatedByte := acc, runningParity := par } }

/-- The next state, if there is one. -/
def nextOf : Result → Option State
  | .next s => some s
  | .fault _ | .refused _ => none

/-- The fault, if there is one. -/
def faultOf : Result → Option Fault
  | .fault f => some f
  | .next _ | .refused _ => none

/-- The refusal, if there is one. -/
def refusalOf : Result → Option Refusal
  | .refused r => some r
  | .next _ | .fault _ => none

/-! ## WellFormed: each check refuses an ill-formed term (R171) -/

theorem test_wellFormed_refuses_a_missing_argument : ¬ (Instr.command 0x10F3#16 []).WellFormed := by decide
theorem test_wellFormed_refuses_a_surplus_argument : ¬ (Instr.command 0x00F4#16 [0x01#8]).WellFormed := by decide
theorem test_wellFormed_takes_the_announced_count : (Instr.command 0x12AB#16 [0x55#8]).WellFormed := by decide

/-! ## Decoding: words written out from the tables of R70 and R80 -/

/-- `SSSS RRRR OOOOOOOO` of each row of R80, bit by bit. -/
theorem test_decode_setscale11 : decodeTableWord 16 0b0000000011100110 = some .setscale11 := by decide
theorem test_decode_setrate : decodeTableWord 24 0b110010000001000011110011 = some (.setrate 0xC8#8) := by decide
theorem test_decode_enable : decodeTableWord 16 0b0000000011110100 = some .enable := by decide
theorem test_decode_disable : decodeTableWord 16 0b0000000011110101 = some .disable := by decide
theorem test_decode_resetBat : decodeTableWord 16 0b0000001011111111 = some .resetBat := by decide
theorem test_decode_setres : decodeTableWord 24 0b000000100001000011101000 = some (.setres 0x02#8) := by decide
theorem test_decode_getinfo : decodeTableWord 16 0b0000001111101001 = some .getinfo := by decide
/-- The shape of W4, and V-E1's last unlisted rows: no descriptor is illegal (R81). -/
theorem test_decode_command : decodeTableWord 24 0x5512AB = some (.command 0x12AB#16 [0x55#8]) := by decide
theorem test_decode_command_zero : decodeTableWord 16 0x0000 = some (.command 0x0000#16 []) := by decide
/-- Operand words that are not given are zeros. -/
theorem test_decode_setrate_short : decodeTableWord 16 0x10F3 = some (.setrate 0x00#8) := by decide
theorem test_decode_rejects_by_name : decode (.descriptor 0x10F3#16 []) = .error .argCountMismatch := by rfl
theorem test_decode_composite : decode (encode (.query 0x00#8)) = .ok (.query 0x00#8) := by rfl

/-! ## Encodings of bits (V-E1, V-E2, R77, V-E4) -/

theorem test_counts_of_ffff : sendCount 0xFFFF#16 = 15 ∧ recvCount 0xFFFF#16 = 15 ∧ opcodeByte 0xFFFF#16 = 0xFF#8 := by decide
theorem test_parity_table : txParity 0x01#8 = false ∧ txParity 0x5A#8 = true ∧ txParity 0xC8#8 = false ∧ txParity 0xFF#8 = true := by
  decide
theorem test_frame_f4 :
    frameBits 0xF4#8 = [false, false, false, true, false, true, true, true, true, false, true] := by decide
theorem test_slices_c5 : slice 0xC5#8 0 = 3#8 ∧ slice 0xC5#8 1 = 0#8 ∧ slice 0xC5#8 2 = 1#8 ∧ slice 0xC5#8 3 = 1#8 := by decide
/-- The byte stream of R214: the opcode and the arguments of each transaction. -/
theorem test_mode_program_bytes :
    (Machine.expansion params .modeProgram).flatMap (fun it => opcodeByte it.desc :: it.args) =
      [0xF5#8, 0xE6#8, 0xE6#8, 0xE8#8, 0x03#8, 0xE8#8, 0x00#8, 0xE8#8, 0x01#8, 0xE8#8, 0x01#8, 0xF3#8, 0x14#8,
       0xE6#8, 0xE6#8, 0xE8#8, 0x00#8, 0xE8#8, 0x00#8, 0xE8#8, 0x00#8, 0xE8#8, 0x03#8, 0xF3#8, 0xC8#8, 0xF4#8] := by decide
/-- V-S10: 36 transactions. -/
theorem test_syn_init_length : (Machine.expansion params .synInit).length = 36 := by decide

/-! ## The link (V-L1 to V-L10) -/

/-- V-L1: the step is a falling edge. -/
theorem test_drive_low_is_a_falling_edge : clkFell ready (driveLow .clk ready) = true := by decide
/-- V-L2: the device still pulls low. -/
theorem test_release_shows_the_device :
    levelAt 0 .data (releaseHigh .data { ready with dataPad := .driveLow, dataDevLow := true }) = LOW := by decide
/-- V-L3. -/
theorem test_sample_releases : sampleLevel .data { ready with dataPad := .driveLow } = HIGH := by decide
/-- V-L6: the last poll before the deadline stays, the first at it times out. -/
theorem test_wait_low_before_the_deadline : pollClock LOW { ready with waitT0 := 1000, now := 25999 } = .stay := by decide
theorem test_wait_low_at_the_deadline : pollClock LOW { ready with waitT0 := 1000, now := 26000 } = .timeout := by decide
/-- V-L7: the level is tested before the deadline. -/
theorem test_wait_level_before_deadline :
    pollClock LOW { ready with waitT0 := 1000, now := 26003, clkDevLow := true } = .ok := by decide
/-- V-L8. -/
theorem test_delay_bound : pollDelay 100 { ready with waitT0 := 500, now := 599 } = .stay ∧
    pollDelay 100 { ready with waitT0 := 500, now := 600 } = .ok := by decide
/-- V-L10. -/
theorem test_wait_high_floats : (waitEnter HIGH ready).clkPad = .inFloat ∧ pollClock HIGH (waitEnter HIGH ready) = .ok := by decide

/-! ## The receiver (V-R1 to V-R11) -/

/-- V-R1, step 7: the last payload one of `0x5A`. -/
theorem test_receive_payload :
    (nextOf (handlerStep none (edge 7#4 0x1A#8 true false))).map (fun t => t.frame) =
      some { bitIndex := 8#4, accumulatedByte := 0x5A#8, runningParity := false } := by decide
/-- V-R2, step 9: a parity fault is reported with the byte. -/
theorem test_receive_parity_fault :
    (nextOf (handlerStep none (edge 9#4 0x5B#8 true false))).map (fun t => (t.diagLog, t.frame.bitIndex)) =
      some ([{ error := .parityError, context := .async, info := .byte 0x5B#8 }], 10#4) := by decide
/-- V-R4, step 0: the frame goes on. -/
theorem test_receive_start_error :
    (nextOf (handlerStep none (edge 0#4 0x00#8 false false))).map (fun t => (t.diagLog, t.frame.bitIndex)) =
      some ([{ error := .startBitError, context := .async, info := .bit true }], 1#4) := by decide
/-- V-R5, step 10: reported, then delivered. -/
theorem test_receive_stop_error :
    (nextOf (handlerStep none (edge 10#4 0x5A#8 true true))).map (fun t => (t.diagLog, t.rxStream, t.frame)) =
      some ([{ error := .stopBitError, context := .async, info := .byte 0x5A#8 }], [0x5A#8], Frame.idle) := by decide
/-- V-R7: a spurious trigger. -/
theorem test_receive_spurious :
    (nextOf (handlerStep none { edge 4#4 0x02#8 true false with clkDevLow := false })).map
        (fun t => (t.frame, t.edgePending, t.clkPad, t.dataPad)) =
      some ({ bitIndex := 4#4, accumulatedByte := 0x02#8, runningParity := true }, false, .inFloat, .inPullup) := by decide
/-- V-R10: the gate is closed. -/
theorem test_receive_gate_closed :
    (nextOf (handlerStep none { edge 4#4 0x02#8 true false with gate := false })).map (fun t => (t.frame.bitIndex, t.clkPad)) =
      some (4#4, .inPullup) := by decide
/-- V-R11. -/
theorem test_receive_out_of_range :
    faultOf (handlerStep none (edge 11#4 0x00#8 false false)) = some .bitIndexOutOfRange := by decide
/-- R131. -/
theorem test_receive_reentrant :
    faultOf (handlerStep (some (.op (.descriptor 0x00F4#16 []))) (edge 10#4 0x5A#8 true false)) = some .reentrantTransaction := by
  decide

/-! ## The operations (V-T10, V-T12, V-C1 to V-S11): their requests -/

/-- V-T10: `CT_BEGIN` of `DISABLE` cuts a partial frame. -/
theorem test_disable_forces_the_frame_idle :
    (nextOf (exec .disable { ready with frame := { bitIndex := 6#4, accumulatedByte := 0x1A#8, runningParity := true },
                                        edgePending := true })).map
        (fun t => (t.frame, t.gate, t.edgePending, t.txn.desc, t.rxStream)) =
      some (Frame.idle, false, false, 0x00F5#16, []) := by decide
theorem test_setscale11_begins : (nextOf (exec .setscale11 ready)).map (fun t => (t.txn.desc, t.txn.args)) = some (0x00E6#16, []) := by
  decide
theorem test_setrate_begins :
    (nextOf (exec (.setrate 0xC8#8) ready)).map (fun t => (t.txn.desc, t.txn.args)) = some (0x10F3#16, [0xC8#8]) := by decide
theorem test_enable_begins : (nextOf (exec .enable ready)).map (fun t => (t.txn.desc, t.seq)) = some (0x00F4#16, .ctOpcode .rtsClk) := by
  decide
theorem test_resetBat_begins : (nextOf (exec .resetBat ready)).map (fun t => recvCount t.txn.desc) = some 2 := by decide
theorem test_setres_begins :
    (nextOf (exec (.setres 0x02#8) ready)).map (fun t => (t.txn.desc, t.txn.args)) = some (0x10E8#16, [0x02#8]) := by decide
theorem test_getinfo_begins : (nextOf (exec .getinfo ready)).map (fun t => recvCount t.txn.desc) = some 3 := by decide
theorem test_command_begins :
    (nextOf (exec (.command 0x12AB#16 [0x55#8]) ready)).map (fun t => (opcodeByte t.txn.desc, t.txn.args)) =
      some (0xAB#8, [0x55#8]) := by decide
/-- V-S3. -/
theorem test_encoded_begins :
    (nextOf (exec (.encoded 0xC5#8) ready)).map (fun t => (t.txn.args, t.op.todo.map Item.args)) =
      some ([3#8], [[0#8], [1#8], [1#8]]) := by decide
/-- V-S7. -/
theorem test_query_ends_with_getinfo :
    (nextOf (exec (.query 0x00#8) ready)).map (fun t => t.op.todo.getLast?.map Item.desc) = some (some 0x03E9#16) := by decide
/-- V-S8. -/
theorem test_set_mode_ends_with_setrate :
    (nextOf (exec (.setMode 0xC5#8 0x14#8) ready)).map (fun t => (t.txn.desc, t.op.todo.getLast?.map Item.args)) =
      some (0x00E6#16, some [0x14#8]) := by decide
/-- V-S9. -/
theorem test_mode_program_begins :
    (nextOf (exec .modeProgram ready)).map (fun t => (t.txn.desc, t.op.todo.length)) = some (0x00F5#16, 15) := by decide
theorem test_syn_init_begins :
    (nextOf (exec .synInit ready)).map (fun t => (t.txn.desc, t.op.todo.length)) = some (0x10E8#16, 35) := by decide
/-- V-T12. -/
theorem test_refuses_argument_count : refusalOf (exec (.command 0x10F3#16 []) ready) = some .argCountMismatch := by decide
theorem test_refuses_before_begin : refusalOf (exec .enable { ready with configured := false }) = some .notConfigured := by decide
theorem test_refuses_while_busy : refusalOf (exec .enable { ready with inTxn := true }) = some .transactionBusy := by decide
theorem test_refuses_write_byte : refusalOf (requestStep (.writeByte 0xF4#8) ready) = some .notAnOperation := by decide
theorem test_faults_in_the_handler : faultOf (exec .enable { ready with inHandler := true }) = some .reentrantTransaction := by decide
/-- R171: in the gap of a composite an operation is admitted, and the composite waits (log 13). -/
theorem test_admits_in_a_gap :
    (nextOf (exec .enable gap)).map (fun t => (t.txn.desc, t.op.todo, t.suspended)) = some (0x00F4#16, [], [gap.op]) := by decide
/-- And goes on when the operation has ended (log 13). -/
theorem test_goes_on_after_the_gap :
    (nextOf (engineStep { busy .ctEnd [] with op := Operation.none, suspended := [gap.op] })).map
        (fun t => (t.op, t.suspended, t.seq, t.resultStream.length)) = some (gap.op, [], .idle, 1) := by decide
/-- R42: `seq` is `IDLE` after `begin`, also where the next transaction of a composite was about to begin (log 13). -/
theorem test_begin_in_a_gap :
    (nextOf (requestStep (.begin .second .first 7) { gap with seq := .ctBegin })).map
        (fun t => (t.seq, t.op, t.link.clockPin, t.gate)) = some (.idle, gap.op, .second, true) := by decide
/-- V-B3. -/
theorem test_begin_same_pin : refusalOf (requestStep (.begin .first .first 0) ready) = some .samePin := by decide

/-! ## The engine (V-T1, V-T2, V-T5, V-X2): single primitives -/

/-- V-T2: line-control bit 1. -/
theorem test_line_control_error :
    (nextOf (engineStep (busy (.ctOpcode .lcSample) []))).map (fun t => (t.diagLog, t.txn.ok, t.seq)) =
      some ([{ error := .lineControlError, context := .sync, info := .bit true }], true, .ctOpcode (.lcWaitHigh .enter)) := by decide
/-- V-T5: acknowledgement `0x00`; the argument is written all the same (R167). -/
theorem test_nack :
    (nextOf (engineStep { busy (.ctOpcode .check) [] with wb := { byte := 0xAB#8, parity := false, lc := false, ack := 0x00#8 } })).map
        (fun t => (t.diagLog, t.txn.ok, t.seq)) =
      some ([{ error := .nackError, context := .sync, info := .byte 0x00#8 }], false, .ctArg 0 .rtsClk) := by decide
/-- R152: a data bit 0 is driven low, a bit 1 is released. -/
theorem test_drive_data_bit :
    (nextOf (engineStep { busy (.ctOpcode (.bitDrive 2)) [] with wb := { byte := 0xAB#8, parity := true, lc := false, ack := 0x00#8 } })).map
        (fun t => (t.dataPad, t.wb.parity)) = some (.driveLow, true) := by decide
/-- V-T9: after the argument, two reads. -/
theorem test_reads_follow_the_argument : Machine.Seq.next 1 2 (.ctArg 0 .check) = .ctResp 0 (.waitLow 0 .enter) ∧
    Machine.Seq.next 1 2 (.ctResp 1 .pulseRel) = .ctEnd := by decide
/-- R169. -/
theorem test_ct_end :
    (nextOf (engineStep { busy .ctEnd [0xAA#8, 0x00#8] with op := Operation.none })).map
        (fun t => (t.gate, t.inTxn, t.seq, t.resultStream)) =
      some (true, false, .idle, [{ ok := true, bytes := [0xAA#8, 0x00#8] }]) := by decide

/-! ## One step from a requested word (R63, R67) -/

theorem test_step_runs_the_word :
    (nextOf (step (ready.withFetchWord 24 0x1410F3))).map (fun t => (t.txn.desc, t.txn.args, t.inTxn, t.inputs)) =
      some (0x10F3#16, [0x14#8], true, []) := by decide
theorem test_step_from_reset_runs_the_word :
    (nextOf (step (State.reset.withFetchWord 16 0x00F4))).map (fun t => (t.txn.desc, t.inTxn)) = some (0x00F4#16, true) := by decide

/-! ## Witnesses: concrete states and operands that meet the hypotheses of each statement -/

/-- A transaction in progress keeps the modes apart. -/
theorem busy_modeInv {q : Machine.Seq} {r : List Byte} (h : q.inTransaction = true) : (busy q r).ModeInv where
  handlerOff := rfl
  gate := rfl
  txnConfigured := fun _ => rfl
  txnSeq := h.symm
  frameIdle := fun _ => rfl
  edgeConfigured := fun _ => rfl
  beginHasItem := fun hq => by
    have : q = .ctBegin := hq
    subst this
    cases h
  waitingConfigured := fun _ => rfl
  suspendedWait := fun _ ho => by cases ho
  suspendedUnder := fun _ _ => rfl

/-- And has its registers in agreement with its position. -/
theorem busy_txnInv {q : Machine.Seq} {r : List Byte} (h : q.counted (busy q r).txn) : (busy q r).TxnInv where
  argCount := fun _ => by
    show [0x55#8].length = sendCount 0x12AB#16
    decide
  position := h
  itemArgs := fun _ hi => by cases hi
  itemPosts := fun _ hi => by cases hi
  post := fun _ => trivial
  ready := ⟨fun h => (by cases h), fun rs _ => ⟨SynState.unwritten, by cases rs <;> rfl, fun h => (by cases h)⟩⟩

/-- The state `ready` admits an operation. -/
theorem ready_ready : ready.Ready := ⟨rfl, rfl, rfl⟩

/-- The frame registers of `ready` are idle. -/
theorem ready_frameInv : ready.FrameInv := by
  constructor <;> decide

/-- The state `ready` is outside a transaction. -/
theorem ready_modeInv : ready.ModeInv where
  handlerOff := rfl
  gate := rfl
  txnConfigured := fun _ => rfl
  txnSeq := rfl
  frameIdle := fun _ => rfl
  edgeConfigured := fun _ => rfl
  beginHasItem := fun h => by cases h
  waitingConfigured := fun _ => rfl
  suspendedWait := fun _ ho => by cases ho
  suspendedUnder := fun _ _ => rfl

/-- The state `ready` meets the whole invariant. -/
theorem ready_inv : ready.Inv := by
  refine ⟨ready_frameInv, ready_modeInv, ?_, ?_, Nat.le_refl _, by decide⟩
  · exact ⟨fun h => (by cases h), trivial, fun _ h => (by cases h), fun _ h => (by cases h), fun h => (by cases h),
      fun h => (by cases h)⟩
  · exact ⟨fun _ _ h => (by cases h), fun _ h => (by cases h), fun _ _ h => (by cases h), fun h => (by cases h)⟩

/-- Two of the busy invariants at once. -/
theorem busy_invs {q : Machine.Seq} {r : List Byte} (h : q.inTransaction = true) (hc : q.counted (busy q r).txn) :
    (busy q r).ModeInv ∧ (busy q r).TxnInv := ⟨busy_modeInv h, busy_txnInv hc⟩

theorem witness_DecodeOfEncodeIsTheOperation :
    (Instr.command 0x10F3#16 [0x14#8]).WellFormed ∧ decode (.descriptor 0x10F3#16 [0x14#8]) = .ok (.setrate 0x14#8) :=
  ⟨by decide, by rfl⟩

theorem witness_OnlyAWrongArgumentCountIsRejected :
    [0x14#8].length = (0x10F3#16).toNat / 4096 ∧ ([] : List Byte).length ≠ (0x10F3#16).toNat / 4096 := by decide

theorem witness_GenericCommandOfAListedDescriptorIsTheMnemonic :
    (Instr.command 0x10F3#16 [0x14#8]).WellFormed ∧ (Instr.command 0x10F3#16 [0x14#8]).canonical = .setrate 0x14#8 :=
  ⟨by decide, by decide⟩

theorem witness_LevelIsTheWiredAnd :
    ({ ready with clkPad := .driveLow }.pad .clk = .driveLow) ∧ ({ ready with dataDevLow := true }.devLow .data = true) ∧
    (ready.pad .clk ≠ .driveLow ∧ ready.devLow .clk = false ∧ ready.pad .clk = .inPullup) ∧
    (let s := { ready with dataPad := .inFloat, cfg := { params with extPullup := false } }
     s.pad .data = .inFloat ∧ s.devLow .data = false ∧ s.cfg.extPullup = false) := by decide

theorem witness_LinkPrimitivesWriteTheirPadAlone :
    { ready with clkDevLow := true }.devLow .clk = true ∧ (ready.devLow .data = false ∧ ready.cfg.extPullup = true) ∧
    { ready with cfg := { params with extPullup := false } }.cfg.extPullup = false := by decide

/-- The four clauses: `W_ENTER`, the level seen, the deadline reached exactly, the poll one microsecond before. -/
theorem witness_ClockWaitPollsTheLevelThenTheDeadline :
    (let s := busy (.ctOpcode (.ack (.waitLow 0 .enter))) []
     (s.ModeInv ∧ s.TxnInv) ∧ s.seq.enters = some LOW ∧ s.reading = some (.waitLow 0 .enter)) ∧
    (let s := busy (.ctArg 0 (.bitWaitHigh 9 .poll)) []
     (s.ModeInv ∧ s.TxnInv) ∧ s.seq.awaits = some HIGH ∧ levelAt s.draws .clk s = HIGH) ∧
    (let s := { busy (.ctResp 1 (.waitLow 10 .poll)) [0xAA#8] with now := 25000 }
     (s.ModeInv ∧ s.TxnInv) ∧ s.seq.awaits = some LOW ∧ levelAt s.draws .clk s ≠ LOW ∧ s.cfg.tTimeout ≤ s.now - s.waitT0) ∧
    (let s := { busy (.ctResp 1 (.waitLow 10 .poll)) [0xAA#8] with now := 24999 }
     (s.ModeInv ∧ s.TxnInv) ∧ s.seq.awaits = some LOW ∧ levelAt s.draws .clk s ≠ LOW ∧ s.now - s.waitT0 < s.cfg.tTimeout) := by
  have h3 : (Machine.Seq.ctResp 1 (.waitLow 10 .poll)).counted
      (busy (.ctResp 1 (.waitLow 10 .poll)) [0xAA#8]).txn := ⟨by decide, rfl⟩
  refine ⟨⟨busy_invs rfl rfl, rfl, rfl⟩, ⟨busy_invs rfl ⟨by decide, rfl⟩, rfl, by decide⟩, ⟨?_, rfl, by decide, by decide⟩,
    ⟨?_, rfl, by decide, by decide⟩⟩
  · obtain ⟨⟨a, b, c, d, e, f, g, h, h', h''⟩, ⟨i, j, k, l, m, n⟩⟩ := busy_invs rfl h3
    exact ⟨⟨a, b, c, d, e, f, g, h, h', h''⟩, ⟨i, j, k, l, m, n⟩⟩
  · obtain ⟨⟨a, b, c, d, e, f, g, h, h', h''⟩, ⟨i, j, k, l, m, n⟩⟩ := busy_invs rfl h3
    exact ⟨⟨a, b, c, d, e, f, g, h, h', h''⟩, ⟨i, j, k, l, m, n⟩⟩

/-- The three clauses, the last two at the bound and one before it. -/
theorem witness_HoldLastsAtLeastItsBound :
    (let s := busy (.ctOpcode (.rtsHold .enter)) []
     (s.ModeInv ∧ s.TxnInv) ∧ s.seq.entersHold = true) ∧
    (let s := { busy (.ctOpcode (.rtsHold .poll)) [] with now := 100 }
     (s.ModeInv ∧ s.TxnInv) ∧ s.seq.holds s.cfg = some 100 ∧ 100 ≤ s.now - s.waitT0) ∧
    (let s := { busy (.ctOpcode (.rtsHold .poll)) [] with now := 99 }
     (s.ModeInv ∧ s.TxnInv) ∧ s.seq.holds s.cfg = some 100 ∧ s.now - s.waitT0 < 100) := by
  refine ⟨⟨busy_invs rfl rfl, rfl⟩, ⟨?_, rfl, by decide⟩, ⟨?_, rfl, by decide⟩⟩
  · obtain ⟨⟨a, b, c, d, e, f, g, h, h', h''⟩, ⟨i, j, k, l, m, n⟩⟩ := busy_invs (q := .ctOpcode (.rtsHold .poll)) (r := []) rfl rfl
    exact ⟨⟨a, b, c, d, e, f, g, h, h', h''⟩, ⟨i, j, k, l, m, n⟩⟩
  · obtain ⟨⟨a, b, c, d, e, f, g, h, h', h''⟩, ⟨i, j, k, l, m, n⟩⟩ := busy_invs (q := .ctOpcode (.rtsHold .poll)) (r := []) rfl rfl
    exact ⟨⟨a, b, c, d, e, f, g, h, h', h''⟩, ⟨i, j, k, l, m, n⟩⟩

/-- A device pulls `CLK` low without an external pull-up and with the gate open, and with it closed; and the three events that
clear a pending edge. -/
theorem witness_FallingEdgeIsLatched :
    (let s := { ready with cfg := { params with extPullup := false }, inputs := [.device .clk true] }
     (∃ t, step s = .next t ∧ t.defined .clk ∧ t.edgePending = true) ∧ s.edgePending = false ∧ s.defined .clk) ∧
    (let s := { ready with gate := false, inTxn := true, inputs := [.device .clk true] }
     (∃ t, step s = .next t ∧ t.gate = false) ∧ s.edgePending = false ∧ s.cfg.edgeLatchWhileMasked = false) ∧
    (∀ e ∈ [Event.handler none, .caller (.op (.descriptor 0x00F4#16 [])), .caller (.begin .first .second 0)],
      (nextOf (step { ready with edgePending := true, inputs := [e] })).map State.edgePending = some false) :=
  ⟨⟨⟨_, rfl, .inl (by decide), by decide⟩, rfl, .inl (by decide)⟩, ⟨⟨_, rfl, rfl⟩, by decide⟩, by decide⟩

theorem witness_SpuriousTriggerChangesOnlyTheClockPad :
    (let s := { edge 4#4 0x02#8 true false with clkDevLow := false }
     s.handlerEnabled = true ∧ sampleLevel .clk (enterHandler s) = HIGH) := by decide

/-- Both sampled bits, at frame positions 0, 1, 8, 9 and 10, and at the first and last value out of range. -/
theorem witness_handler_steps :
    (∀ index ∈ [0#4, 1#4, 8#4, 9#4, 10#4, 11#4, 15#4], ∀ low ∈ [false, true],
      (edge index 0x00#8 false low).handlerEnabled = true ∧
      sampleLevel .clk (enterHandler (edge index 0x00#8 false low)) = LOW ∧
      sampleLevel .data (sampled .clk (enterHandler (edge index 0x00#8 false low))) = !low) := by decide
theorem witness_StartBitIsCheckedAndTheFrameGoesOn : (edge 0#4 0x00#8 false true).frame.bitIndex = 0#4 := rfl
theorem witness_PayloadBitIsAccumulatedLsbFirst :
    ∀ index ∈ [1#4, 8#4], 1 ≤ (edge index 0x00#8 false true).frame.bitIndex.toNat ∧
      (edge index 0x00#8 false true).frame.bitIndex.toNat ≤ 8 := by decide
theorem witness_ParityBitIsCheckedAndTheFrameGoesOn : (edge 9#4 0x00#8 false true).frame.bitIndex = 9#4 := rfl
theorem witness_StopBitDeliversTheByteAnyway : (edge 10#4 0x00#8 false true).frame.bitIndex = 10#4 := rfl
theorem witness_OutOfRangeBitIndexFaults :
    ∀ index ∈ [11#4, 15#4], 11 ≤ (edge index 0x00#8 false true).frame.bitIndex.toNat := by decide
theorem witness_OperationFromTheCallbackFaults :
    { ready with inHandler := true }.inHandler = true ∧ (edge 10#4 0x00#8 false true).handlerEnabled = true ∧
    sampleLevel .clk (enterHandler (edge 10#4 0x00#8 false true)) = LOW ∧
    (edge 10#4 0x00#8 false true).frame.bitIndex = 10#4 := by decide

theorem witness_HandlerStepLeavesTheCallerUntouched :
    ∃ t, handlerStep none (edge 9#4 0x00#8 false true) = .next t ∧ (edge 9#4 0x00#8 false true).inHandler = false ∧
      t.diagLog ≠ [] := ⟨_, rfl, rfl, by decide⟩

/-- An edge is pending and the gate is open. -/
def pendingEdge : State := { ready with edgePending := true }

/-- The engine first, and then the handler for ever. -/
def patient : Nat → Event
  | 0 => .engine
  | _ + 1 => .handler none

theorem witness_ClosedGateKeepsTheHandlerOut :
    ready.edgePending = false ∧ { ready with gate := false }.gate = false ∧ { ready with inHandler := true }.inHandler = true ∧
    (busy .ctEnd []).ModeInv ∧ (busy .ctEnd []).inTxn = true ∧
    pendingEdge.ModeInv ∧ HandlerFair pendingEdge patient ∧ (∀ n, quiet (patient n) = true) ∧ pendingEdge.handlerEnabled = true :=
  ⟨rfl, rfl, rfl, busy_modeInv rfl, rfl,
    ⟨rfl, rfl, fun h => (by cases h), rfl, fun h => (by cases h), fun _ => rfl, fun h => (by cases h), fun _ => rfl,
      fun _ h => (by cases h), fun _ _ => rfl⟩,
    fun n => ⟨n + 1, Nat.le_succ n, .inl ⟨none, rfl⟩⟩, fun n => by cases n <;> rfl, rfl⟩

theorem witness_ElevenBitsDeliverOneByteWithTheirReports :
    (frameBits 0x5A#8).length = 11 ∧ ready.frame = Frame.idle ∧ ready.configured = true ∧ ready.gate = true ∧
    ready.inHandler = false ∧ ready.cfg.extPullup = true ∧ ready.clkPad ≠ .driveLow ∧ ready.clkDevLow = false := by decide

theorem witness_FlippedDataBitIsAParityErrorAlone : (1 ≤ 1 ∧ 1 ≤ 8) ∧ (1 ≤ 8 ∧ 8 ≤ 8) := by decide

theorem witness_EveryStepKeepsTheFrameInvariant :
    (∃ t, step { ready with inputs := [.time 5] } = .next t) ∧ { ready with inputs := [.time 5] }.FrameInv :=
  ⟨⟨_, rfl⟩, by constructor <;> decide⟩

theorem witness_OnlyTheHandlerAppendsToTheByteStream :
    ∃ t, step { edge 10#4 0x5A#8 true false with inputs := [.handler none] } = .next t ∧ t.rxStream = [0x5A#8] :=
  ⟨_, rfl, by decide⟩

theorem witness_BeginSetsTheBlockUp : ready.inHandler = false ∧ ready.inTxn = false ∧ PinId.first ≠ .second := by decide

theorem witness_BeginIsRefusedOutOfPlace :
    ({ ready with inTxn := true }.inTxn = true ∧ { ready with inTxn := true }.inHandler = false) ∧
    (ready.inTxn = false ∧ ready.inHandler = false) ∧
    ({ ready with inHandler := true }.inTxn = false ∧ { ready with inHandler := true }.inHandler = true) := by decide

/-- Before `begin`, and the two ways that a step goes on from there. -/
theorem witness_BeforeBeginOperationsAreRefusedAndEdgesLost :
    (let s := { ready with configured := false, gate := false }
     s.BeforeBegin ∧
     (∃ t, step { s with inputs := [.device .clk true] } = .next t ∧ t.edgePending = false) ∧
     (∃ t, step { s with inputs := [.caller (.begin .first .second 0)] } = .next t ∧ t.configured = true)) :=
  ⟨by constructor <;> rfl, ⟨_, rfl, by decide⟩, ⟨_, rfl, rfl⟩⟩

/-- One state in which every operation is admitted (R171). -/
theorem witness_operations_begin :
    ready.Ready ∧ (Instr.enable, 0x00F4#16) ∈ [(Instr.enable, 0x00F4#16)] ∧
    [0x55#8].length = (0x12AB#16).toNat / 4096 ∧ ([] : List Byte).length ≠ (0x12AB#16).toNat / 4096 :=
  ⟨ready_ready, by decide, by decide, by decide⟩
theorem witness_CommandsWithoutArgumentBegin :
    ready.Ready ∧ ∀ p ∈ [(Instr.setscale11, 0x00E6#16), (.enable, 0x00F4#16), (.disable, 0x00F5#16), (.resetBat, 0x02FF#16),
      (.getinfo, 0x03E9#16)], (nextOf (exec p.1 ready)).map (fun t => t.txn.desc) = some p.2 := ⟨ready_ready, by decide⟩
theorem witness_CommandsWithOneArgumentBegin :
    ready.Ready ∧ ∀ p ∈ [(Instr.setrate 0x14#8, 0x10F3#16), (.setres 0x14#8, 0x10E8#16)],
      (nextOf (exec p.1 ready)).map (fun t => t.txn.desc) = some p.2 := ⟨ready_ready, by decide⟩
theorem witness_GenericCommandBeginsWithItsArgumentCount :
    ready.Ready ∧ [0x55#8].length = (0x12AB#16).toNat / 4096 ∧ ([] : List Byte).length ≠ (0x12AB#16).toNat / 4096 :=
  ⟨ready_ready, by decide⟩
theorem witness_CompositesBeginTheirSeries : ready.Ready := ready_ready

/-- Not configured, in a transaction, and between two transactions of a composite; and words with an argument missing. -/
theorem witness_OperationsOutOfPlaceAreRefused :
    Instr.enable.WellFormed ∧
    (let s := { ready with configured := false }
     s.inHandler = false ∧ s.configured = false ∧ s.inTxn = false) ∧
    (let s := { ready with inTxn := true }
     s.inHandler = false ∧ s.configured = true ∧ s.inTxn = true) ∧
    (gap.inHandler = false ∧ gap.configured = true ∧ gap.inTxn = false ∧ gap.op.todo ≠ []) ∧
    ready.Ready ∧ ([] : List Byte).length ≠ (0x10F3#16).toNat / 4096 :=
  ⟨by decide, by decide, by decide, by decide, ready_ready, by decide⟩

theorem witness_StepRunsTheDecodedOperation :
    { ready with inputs := [.caller (.op (.descriptor 0x10F3#16 [0x14#8]))] }.inputs =
      .caller (.op (.descriptor 0x10F3#16 [0x14#8])) :: [] ∧
    decode (.descriptor 0x10F3#16 [0x14#8]) = .ok (.setrate 0x14#8) ∧
    decodeTableWord 24 0x1410F3 = some (.setrate 0x14#8) := ⟨rfl, rfl, by decide⟩

/-- Each of the six steps, in an opcode's write and in an argument's, the hold at its bound and one before it. -/
theorem witness_RequestToSendHoldsTheClockThenLowersData :
    (∀ p ∈ [WritePos.rtsClk, .rtsHold .enter, .rtsHold .poll, .rtsData, .rtsRel],
      (busy (.ctOpcode p) []).writing = some (0xAB#8, p) ∧ (busy (.ctArg 0 p) []).writing = some (0x55#8, p)) ∧
    (let s := { busy (.ctOpcode (.rtsHold .poll)) [] with now := 100 }
     s.cfg.tRts ≤ s.now - s.waitT0) ∧
    (let s := { busy (.ctOpcode (.rtsHold .poll)) [] with now := 99 }
     s.now - s.waitT0 < s.cfg.tRts) := by decide

/-- A data bit, the parity bit and the stop bit of `0xAB`, with the lines as the steps before leave them. -/
theorem witness_DriveShowsTheFrameBit :
    (∀ i ∈ [(0 : Fin 10), 7, 8, 9],
      let s := { busy (.ctOpcode (.bitDrive i)) [] with
        clkPad := .inPullup, dataPad := padOfBit (frameBit 0xAB#8 i.val)
        wb := { byte := 0xAB#8, parity := (true ^^ prefixParity 0xAB#8 (min i.val 8)), lc := false, ack := 0x00#8 } }
      s.writing = some (0xAB#8, .bitDrive i) ∧ s.WireInv) := by
  intro i _
  have hw : (busy (.ctOpcode (.bitDrive i)) []).writing = some (0xAB#8, .bitDrive i) := by
    show some (opcodeByte 0x12AB#16, WritePos.bitDrive i) = _
    rw [show opcodeByte 0x12AB#16 = 0xAB#8 by decide]
  refine ⟨hw, ⟨?_, fun _ h => (by cases h), fun _ _ h => (by cases h), fun h => (by cases h)⟩⟩
  intro b p h
  obtain ⟨rfl, rfl⟩ : (0xAB#8 = b) ∧ (WritePos.bitDrive i = p) := by
    have := hw.symm.trans h; simpa using this
  exact ⟨fun _ => rfl, fun _ => rfl, fun m h => (by cases h; rfl), fun m h => (by cases h; rfl)⟩

theorem witness_LineControlErrorIsOnlyReported : (busy (.ctArg 0 .lcSample) []).writing = some (0x55#8, .lcSample) := rfl
theorem witness_OnlyAWrongAcknowledgementFailsTheWrite : (busy (.ctArg 0 .check) []).writing = some (0x55#8, .check) := rfl

/-- Each of the steps, in an acknowledgement and in a response, the hold at its bound and one before it. -/
theorem witness_ReadyPulseEndsARead :
    (∀ p ∈ [ReadPos.pulseLow, .pulseHold .enter, .pulseHold .poll, .pulseRel],
      (busy (.ctArg 0 (.ack p)) []).reading = some p ∧ (busy (.ctResp 0 p) []).reading = some p) ∧
    (let s := { busy (.ctResp 0 (.pulseHold .poll)) [] with now := 10 }
     s.cfg.tReadyPulse ≤ s.now - s.waitT0) ∧
    (let s := { busy (.ctResp 0 (.pulseHold .poll)) [] with now := 9 }
     s.now - s.waitT0 < s.cfg.tReadyPulse) ∧
    (∀ p, (busy (.ctArg 0 (.ack p)) []).ModeInv ∧ (busy (.ctArg 0 (.ack p)) []).TxnInv) ∧
    (∀ p, (busy (.ctResp 0 p) []).ModeInv ∧ (busy (.ctResp 0 p) []).TxnInv) :=
  ⟨by decide, by decide, by decide, fun _ => busy_invs rfl ⟨(show 0 < sendCount 0x12AB#16 by decide), rfl⟩,
    fun _ => busy_invs rfl ⟨(show 0 < recvCount 0x12AB#16 by decide), rfl⟩⟩

theorem witness_ReadSampleTakesTheBitAndItsCheck :
    (∀ k ∈ [(0 : Fin 11), 1, 8, 9, 10],
      (busy (.ctResp 0 (.sample k)) []).reading = some (.sample k) ∧
      sampleLevel .data (busy (.ctResp 0 (.sample k)) []) = HIGH ∧
      sampleLevel .data { busy (.ctResp 0 (.sample k)) [] with dataDevLow := true } = LOW) ∧
    (∀ k, (busy (.ctResp 0 (.sample k)) []).ModeInv ∧ (busy (.ctResp 0 (.sample k)) []).TxnInv) :=
  ⟨by decide, fun _ => busy_invs rfl ⟨(show 0 < recvCount 0x12AB#16 by decide), rfl⟩⟩

/-- A Synaptics store with all four responses and a snapshot, of arbitrary values. -/
def filled : SynState :=
  { version := some ⟨1, 2, 3⟩, extCaps := some ⟨4, 5, 6⟩, resolution := some ⟨7, 8, 9⟩, clickpad := some ⟨10, 11, 12⟩,
    snapshot := some { xUnitsPerMm := 1, yUnitsPerMm := 2, clickpadType := 3, capabilityFlags := 4 }, initDone := true }

/-- The end of a `GETINFO` of which `p` is kept. -/
def ending (p : Post) : State :=
  { ready with gate := false, inTxn := true, seq := .ctEnd, syn := filled, op := { todo := [], ok := true, post := p }
               txn := { desc := 0x03E9#16, args := [], results := [0x01#8, 0x47#8, 0x18#8], ok := true } }

/-- Everything that can be kept is ready to be kept. -/
theorem filled_ready (p : Post) : postsReady filled [p] := by
  refine ⟨fun _ => rfl, fun rs hrs => ?_⟩
  cases p with
  | nothing => exact ⟨_, by cases rs <;> rfl, fun _ => rfl⟩
  | initDone => exact ⟨_, by cases rs <;> rfl, fun _ => rfl⟩
  | keep q =>
    match rs, hrs with
    | [_, _, _], _ => cases q <;> exact ⟨_, rfl, fun _ => rfl⟩
  | keepAndParse q =>
    match rs, hrs with
    | [_, _, _], _ => cases q <;> exact ⟨_, rfl, fun _ => rfl⟩

/-- The end of each kind of transaction meets the premises, with a composite put aside as well. -/
theorem witness_TransactionEndOpensTheGate (p : Post) :
    (ending p).seq = .ctEnd ∧ (ending p).ModeInv ∧ (ending p).TxnInv ∧ (ending p).txn.results = [0x01#8, 0x47#8, 0x18#8] ∧
    { ending p with suspended := [gap.op] }.ModeInv :=
  ⟨rfl, ⟨rfl, rfl, fun _ => rfl, rfl, fun _ => rfl, fun _ => rfl, fun h => (by cases h), fun _ => rfl, fun _ h => (by cases h),
      fun _ _ => rfl⟩,
    ⟨fun _ => (show ([] : List Byte).length = sendCount 0x03E9#16 by decide),
      (show [0x01#8, 0x47#8, 0x18#8].length = recvCount 0x03E9#16 by decide), fun _ h => (by cases h), fun _ h => (by cases h),
      fun _ => (show p.counted (recvCount 0x03E9#16) by cases p <;> trivial),
      filled_ready p⟩, rfl,
    ⟨rfl, rfl, fun _ => rfl, rfl, fun _ => rfl, fun _ => rfl, fun h => (by cases h), fun _ => rfl,
      fun o ho => (by
        have : o = gap.op := by simpa using ho
        subst this
        decide),
      fun h => (by cases h)⟩⟩

theorem witness_CompositeGoesOnAfterAnIdleStep :
    (ready.seq = .idle ∧ ready.op.todo = []) ∧ (let s := { busy .ctEnd [0xAA#8, 0x00#8] with op := { todo := [item descGetinfo []], ok := true, post := .nothing } }
     s.op.todo = item descGetinfo [] :: [] ∧ s.seq = .ctEnd ∧ ∃ t, engineStep s = .next t) ∧
    gap.seq = .idle ∧ { gap with seq := .ctBegin }.seq = .ctBegin :=
  ⟨⟨rfl, rfl⟩, ⟨rfl, rfl, ⟨_, rfl⟩⟩, rfl, rfl⟩

/-- Before an initialization, and after one. -/
theorem witness_SnapshotReadNeedsTheInitialization :
    ready.syn.initDone = false ∧ { ready with syn := filled }.syn.initDone = true ∧ { ready with syn := filled }.TxnInv :=
  ⟨rfl, rfl, ⟨fun h => (by cases h), trivial, fun _ h => (by cases h), fun _ h => (by cases h), fun h => (by cases h),
    fun _ => rfl⟩⟩

theorem witness_SynchronousReadAssemblesElevenBits :
    (frameBits 0x5A#8).length = 11 ∧ (busy (.ctResp 0 (.waitLow 0 .enter)) []).seq = .ctResp 0 (.waitLow 0 .enter) ∧
    (busy (.ctResp 0 (.waitLow 0 .enter)) []).cfg.extPullup = true := by decide

/-- A schedule in which time passes one microsecond at a time, with an engine step after each. -/
def tick (n : Nat) : Event := if n % 2 = 0 then .time 1 else .engine

theorem elapsed_append (l m : List Event) : elapsed (l ++ m) = elapsed l + elapsed m := by
  induction l with
  | nil => simp [elapsed]
  | cons e l ih => cases e <;> simp [elapsed, ih, Nat.add_assoc]

theorem tick_elapsed (d : Nat) : d ≤ elapsed (firstEvents tick (2 * d)) := by
  induction d with
  | zero => exact Nat.zero_le _
  | succ d ih =>
    have h : firstEvents tick (2 * (d + 1)) = firstEvents tick (2 * d) ++ [.time 1, .engine] := by
      simp [firstEvents, Nat.mul_add, List.range_succ, tick]
    rw [h, elapsed_append]
    simp only [elapsed]
    omega

/-- It is weakly fair, though no single time step is longer than a microsecond. -/
theorem tick_fair : WeaklyFair tick :=
  ⟨fun n => ⟨2 * n + 1, by omega, by simp [tick]⟩, fun d => ⟨2 * d, tick_elapsed d⟩⟩

/-- A list of `n` rounds counts as that many. -/
theorem rounds_count (n : Nat) : fairRounds params 0 (List.replicate n [Event.time 25000, .engine]).flatten = n := by
  induction n with
  | zero => rfl
  | succ n ih =>
    rw [List.replicate_succ, List.flatten_cons, List.cons_append, List.cons_append, List.nil_append, fairRounds, fairRounds,
      if_pos (by decide), ih]

/-- `ENABLE` takes 121 rounds, here of one long time step each; and the schedule of small ones. -/
theorem witness_EveryOperationEnds :
    Instr.enable.WellFormed ∧ ready.Inv ∧ ready.Ready ∧
    (∀ e ∈ (List.replicate 121 [Event.time 25000, .engine]).flatten, quiet e = true) ∧
    operationLength (Machine.expansion ready.cfg .enable) ≤
      fairRounds ready.cfg 0 (List.replicate 121 [Event.time 25000, .engine]).flatten ∧
    WeaklyFair tick ∧ ∀ n, quiet (tick n) = true := by
  refine ⟨rfl, ready_inv, ready_ready, ?_, ?_, tick_fair, ?_⟩
  · intro e he
    obtain ⟨r, hr, he⟩ := List.mem_flatten.mp he
    rw [List.eq_of_mem_replicate hr] at he
    obtain rfl | rfl : e = .time 25000 ∨ e = .engine := by simpa using he
    · rfl
    · rfl
  · show _ ≤ fairRounds params 0 _
    rw [rounds_count]
    decide
  · intro n
    unfold tick
    split <;> rfl

/-- A device that answers each transaction of a series with `0xFA` and zeros. -/
def obedient (items : List Item) : List Answer :=
  items.map fun it => { acks := List.replicate (1 + sendCount it.desc) 0xFA#8, responses := List.replicate (recvCount it.desc) 0x00#8 }

theorem obedient_fits (items : List Item) : answersFit (obedient items) items := by
  induction items with
  | nil => trivial
  | cons it rest ih => exact ⟨⟨by simp, by simp⟩, ih⟩

theorem witness_CooperatingDeviceGetsTheWholeOperation :
    (Instr.query 0x00#8).WellFormed ∧ ready.ModeInv ∧ ready.Ready ∧ ready.cfg.extPullup = true ∧
    answersFit (obedient (Machine.expansion ready.cfg (.query 0x00#8))) (Machine.expansion ready.cfg (.query 0x00#8)) :=
  ⟨rfl, ready_modeInv, ready_ready, rfl, obedient_fits _⟩

theorem witness_SynapticsInitializationKeepsTheResponses :
    ready.Ready ∧ ready.cfg.extPullup = true ∧
    answersFit (obedient (Machine.expansion ready.cfg .synInit)) (Machine.expansion ready.cfg .synInit) :=
  ⟨ready_ready, rfl, obedient_fits _⟩

/-- The invariant does not look at the events still to come. -/
theorem ready_inv_with (l : List Event) : { ready with inputs := l }.Inv := by
  obtain ⟨⟨a, b, c, d⟩, ⟨e, f, g, h, i, j, k, m, m', m''⟩, ⟨n, o, p, q, r, u⟩, ⟨v, w, x, y⟩, z, z'⟩ := ready_inv
  exact ⟨⟨a, b, c, d⟩, ⟨e, f, g, h, i, j, k, m, m', m''⟩, ⟨n, o, p, q, r, u⟩,
    ⟨fun _ _ h => (by cases h), fun _ h => (by cases h), fun _ _ h => (by cases h), fun h => (by cases h)⟩, z, z'⟩

theorem witness_EveryStepKeepsTheModesApart :
    { ready with inputs := [.caller (.op (.descriptor 0x00F4#16 []))] }.ModeInv ∧
    ∃ t, step { ready with inputs := [.caller (.op (.descriptor 0x00F4#16 []))] } = .next t ∧ t.inTxn = true :=
  ⟨(ready_inv_with _).mode, _, rfl, by decide⟩
theorem witness_EveryStepKeepsTheInvariant :
    { ready with inputs := [.caller (.op (.descriptor 0x00F4#16 []))] }.Inv ∧
    ∃ t, step { ready with inputs := [.caller (.op (.descriptor 0x00F4#16 []))] } = .next t :=
  ⟨ready_inv_with _, _, rfl⟩

/-- A read of the snapshot too early is a fault from the invariant, and so are, in states that no run reaches, the engine's
reads of an argument, of a response and of a raw response that are not there. -/
theorem witness_OnlyContractBreachesFault :
    ({ ready with inputs := [.readSnapshot] }.Inv ∧ step { ready with inputs := [.readSnapshot] } = .fault .noValue) ∧
    engineStep { busy (.ctArg 0 .rtsClk) [] with txn := Txn.none } = .fault .noValue ∧
    engineStep { ending (.keep .version) with txn := Txn.none } = .fault .noValue ∧
    engineStep { ending (.keepAndParse .clickpad) with syn := SynState.unwritten } = .fault .noValue :=
  ⟨⟨ready_inv_with _, rfl⟩, rfl, rfl, rfl⟩

theorem witness_OnlyNackErrorChangesOk :
    { busy (.ctOpcode .check) [] with inputs := [.engine] }.ModeInv ∧
    (∃ t, step { busy (.ctOpcode .check) [] with inputs := [.engine] } = .next t ∧ t.txn.ok = false) ∧
    { busy (.ctOpcode .check) [] with inputs := [.engine] }.inTxn = true := by
  obtain ⟨a, b, c, d, e, f, g, h, h', h''⟩ := busy_modeInv (q := .ctOpcode .check) (r := []) rfl
  exact ⟨⟨a, b, c, d, e, f, g, h, h', h''⟩, ⟨_, rfl, by decide⟩, rfl⟩

/-- A step with a report, a fault and a refusal. -/
theorem witness_DiagnosticLogIsNeverRead :
    (∃ t, step { busy (.ctOpcode .check) [] with inputs := [.engine] } = .next t ∧ t.diagLog ≠ []) ∧
    step { ready with inputs := [.readSnapshot] } = .fault .noValue ∧
    step { busy (.ctOpcode .check) [] with inputs := [.caller .readByteSync] } = .refused .notAnOperation :=
  ⟨⟨_, rfl, by decide⟩, rfl, rfl⟩

/-- `begin` before which the gate was closed, a transaction's start, its end. -/
theorem witness_OnlyThreeEventsWriteTheGate :
    (∃ t, step { ready with configured := false, gate := false, inputs := [.caller (.begin .first .second 0)] } = .next t ∧ t.gate ≠ false) ∧
    (∃ t, step { ready with inputs := [.caller (.op (.descriptor 0x00F4#16 []))] } = .next t ∧ t.gate ≠ ready.gate) ∧
    (∃ t, step { busy .ctEnd [0xAA#8, 0x00#8] with inputs := [.engine] } = .next t ∧ t.gate ≠ false) :=
  ⟨⟨_, rfl, by decide⟩, ⟨_, rfl, by decide⟩, ⟨_, rfl, by decide⟩⟩

/-- A handler step, a transaction's start that cuts a frame, a `begin` that does. -/
theorem witness_OnlyThreeEventsWriteTheFrame :
    (∃ t, step { edge 1#4 0x00#8 false true with inputs := [.handler none] } = .next t ∧
      t.frame ≠ (edge 1#4 0x00#8 false true).frame) ∧
    (∃ t, step { edge 1#4 0x00#8 false true with inputs := [.caller (.op (.descriptor 0x00F4#16 []))] } = .next t ∧
      t.frame ≠ (edge 1#4 0x00#8 false true).frame) ∧
    (∃ t, step { edge 1#4 0x00#8 false true with inputs := [.caller (.begin .first .second 0)] } = .next t ∧
      t.frame ≠ (edge 1#4 0x00#8 false true).frame) :=
  ⟨⟨_, rfl, by decide⟩, ⟨_, rfl, by decide⟩, ⟨_, rfl, by decide⟩⟩

theorem witness_EnvironmentStateChangesByItsOwnEventsAlone :
    (∃ t, step { ready with inputs := [.caller (.begin .second .first 0)] } = .next t ∧ t.link ≠ ready.link) ∧
    (∃ t, step { ready with inputs := [.time 7] } = .next t ∧ t.now ≠ ready.now) ∧
    (∃ t, step { ready with inputs := [.device .clk true] } = .next t ∧ t.clkDevLow ≠ ready.clkDevLow) :=
  ⟨⟨_, rfl, by decide⟩, ⟨_, rfl, by decide⟩, ⟨_, rfl, by decide⟩⟩

/-- Each owner writes: the handler, the engine and `begin` a pad; the end of a transaction the store and a result. -/
theorem witness_OnlyTheirOwnersWriteThePadsTheStoreAndTheResults :
    (∃ t, step { edge 1#4 0x00#8 false true with inputs := [.handler none] } = .next t ∧ t.clkPad ≠ ready.clkPad) ∧
    (∃ t, step { busy (.ctOpcode .rtsClk) [] with inputs := [.engine] } = .next t ∧ t.clkPad ≠ ready.clkPad) ∧
    (∃ t, step { ready with dataPad := .inFloat, inputs := [.caller (.begin .first .second 0)] } = .next t ∧ t.dataPad ≠ .inFloat) ∧
    (∃ t, step { ending (.keep .version) with inputs := [.engine] } = .next t ∧ t.syn ≠ filled ∧ t.resultStream ≠ []) :=
  ⟨⟨_, rfl, by decide⟩, ⟨_, rfl, by decide⟩, ⟨_, rfl, by decide⟩, ⟨_, rfl, by decide, by decide⟩⟩

end Sys2Proof.Tests
end

section
/-! PROOFS. No rule reads the log (R40, R247): a longer log before the step is carried through every operation of the
model unchanged, so a step with another log does the same and appends the same reports. -/

namespace Sys2Proof.Machine

/-! ## A log put before a state's own -/

/-- The state with the events of `log` before those of its own log. -/
def State.prependLog (log : List DiagEvent) (s : State) : State := { s with diagLog := log ++ s.diagLog }

@[simp] theorem prependLog_cfg (log : List DiagEvent) (s : State) : (s.prependLog log).cfg = s.cfg := rfl
@[simp] theorem prependLog_link (log : List DiagEvent) (s : State) : (s.prependLog log).link = s.link := rfl
@[simp] theorem prependLog_configured (log : List DiagEvent) (s : State) : (s.prependLog log).configured = s.configured := rfl
@[simp] theorem prependLog_frame (log : List DiagEvent) (s : State) : (s.prependLog log).frame = s.frame := rfl
@[simp] theorem prependLog_gate (log : List DiagEvent) (s : State) : (s.prependLog log).gate = s.gate := rfl
@[simp] theorem prependLog_edgePending (log : List DiagEvent) (s : State) : (s.prependLog log).edgePending = s.edgePending := rfl
@[simp] theorem prependLog_clkPad (log : List DiagEvent) (s : State) : (s.prependLog log).clkPad = s.clkPad := rfl
@[simp] theorem prependLog_dataPad (log : List DiagEvent) (s : State) : (s.prependLog log).dataPad = s.dataPad := rfl
@[simp] theorem prependLog_clkDevLow (log : List DiagEvent) (s : State) : (s.prependLog log).clkDevLow = s.clkDevLow := rfl
@[simp] theorem prependLog_dataDevLow (log : List DiagEvent) (s : State) : (s.prependLog log).dataDevLow = s.dataDevLow := rfl
@[simp] theorem prependLog_inTxn (log : List DiagEvent) (s : State) : (s.prependLog log).inTxn = s.inTxn := rfl
@[simp] theorem prependLog_inHandler (log : List DiagEvent) (s : State) : (s.prependLog log).inHandler = s.inHandler := rfl
@[simp] theorem prependLog_txn (log : List DiagEvent) (s : State) : (s.prependLog log).txn = s.txn := rfl
@[simp] theorem prependLog_wb (log : List DiagEvent) (s : State) : (s.prependLog log).wb = s.wb := rfl
@[simp] theorem prependLog_rb (log : List DiagEvent) (s : State) : (s.prependLog log).rb = s.rb := rfl
@[simp] theorem prependLog_waitT0 (log : List DiagEvent) (s : State) : (s.prependLog log).waitT0 = s.waitT0 := rfl
@[simp] theorem prependLog_now (log : List DiagEvent) (s : State) : (s.prependLog log).now = s.now := rfl
@[simp] theorem prependLog_seq (log : List DiagEvent) (s : State) : (s.prependLog log).seq = s.seq := rfl
@[simp] theorem prependLog_op (log : List DiagEvent) (s : State) : (s.prependLog log).op = s.op := rfl
@[simp] theorem prependLog_suspended (log : List DiagEvent) (s : State) : (s.prependLog log).suspended = s.suspended := rfl
@[simp] theorem prependLog_syn (log : List DiagEvent) (s : State) : (s.prependLog log).syn = s.syn := rfl
@[simp] theorem prependLog_rxStream (log : List DiagEvent) (s : State) : (s.prependLog log).rxStream = s.rxStream := rfl
@[simp] theorem prependLog_resultStream (log : List DiagEvent) (s : State) : (s.prependLog log).resultStream = s.resultStream := rfl
@[simp] theorem prependLog_inputs (log : List DiagEvent) (s : State) : (s.prependLog log).inputs = s.inputs := rfl
@[simp] theorem prependLog_draws (log : List DiagEvent) (s : State) : (s.prependLog log).draws = s.draws := rfl
@[simp] theorem prependLog_choices (log : List DiagEvent) (s : State) : (s.prependLog log).choices = s.choices := rfl
@[simp] theorem prependLog_diagLog (log : List DiagEvent) (s : State) : (s.prependLog log).diagLog = log ++ s.diagLog := rfl

/-- The same of what a step answers; a fault and a refusal carry no log. -/
def prependLogs (log : List DiagEvent) : Result → Result
  | .next t => .next (t.prependLog log)
  | .fault f => .fault f
  | .refused r => .refused r

@[simp] theorem prependLogs_next (log : List DiagEvent) (t : State) :
    prependLogs log (.next t) = .next (t.prependLog log) := rfl
@[simp] theorem prependLogs_fault (log : List DiagEvent) (f : Fault) : prependLogs log (.fault f) = .fault f := rfl
@[simp] theorem prependLogs_refused (log : List DiagEvent) (r : Refusal) : prependLogs log (.refused r) = .refused r := rfl

section
variable (log : List DiagEvent) (s : State)

/-! ## What reads a line or a deadline does not see the log -/

@[simp] theorem levelAt_prependLog (n : Nat) (l : Line) : levelAt n l (s.prependLog log) = levelAt n l s := by
  cases l <;> rfl

@[simp] theorem sampleLevel_prependLog (l : Line) : sampleLevel l (s.prependLog log) = sampleLevel l s := by
  cases l <;> rfl

@[simp] theorem pollClock_prependLog (t : Level) : pollClock t (s.prependLog log) = pollClock t s := rfl

@[simp] theorem pollDelay_prependLog (d : Time) : pollDelay d (s.prependLog log) = pollDelay d s := rfl

@[simp] theorem readDone_prependLog (p : ReadPos) : readDone p (s.prependLog log) = readDone p s := by
  rcases p with ⟨k, _ | _⟩ | k | ⟨k, _ | _⟩ | _ | ⟨_ | _⟩ | _ <;> simp [readDone]

@[simp] theorem writeDone_prependLog (p : WritePos) : writeDone p (s.prependLog log) = writeDone p s := by
  rcases p with _ | ⟨_ | _⟩ | _ | _ | ⟨i, _ | _⟩ | i | ⟨i, _ | _⟩ | ⟨_ | _⟩ | _ | ⟨_ | _⟩ | q | _ <;> simp [writeDone]

@[simp] theorem handlerEnabled_prependLog : (s.prependLog log).handlerEnabled = s.handlerEnabled := rfl

/-! ## Operations that write no log -/

@[simp] theorem nextDraw_prependLog : (s.prependLog log).nextDraw = s.nextDraw.prependLog log := rfl

@[simp] theorem driveLow_prependLog (l : Line) : driveLow l (s.prependLog log) = (driveLow l s).prependLog log := by
  cases l <;> rfl

@[simp] theorem releaseHigh_prependLog (l : Line) :
    releaseHigh l (s.prependLog log) = (releaseHigh l s).prependLog log := by
  cases l <;> rfl

@[simp] theorem setDevLow_prependLog (l : Line) (low : Bool) :
    (s.prependLog log).setDevLow l low = (s.setDevLow l low).prependLog log := by
  cases l <;> rfl

@[simp] theorem sampled_prependLog (l : Line) : sampled l (s.prependLog log) = (sampled l s).prependLog log := by
  cases l <;> rfl

@[simp] theorem setData_prependLog (v : Level) : setData v (s.prependLog log) = (setData v s).prependLog log := by
  cases v <;> rfl

@[simp] theorem waitEnter_prependLog (t : Level) : waitEnter t (s.prependLog log) = (waitEnter t s).prependLog log := rfl

@[simp] theorem delayEnter_prependLog : delayEnter (s.prependLog log) = (delayEnter s).prependLog log := rfl

@[simp] theorem enterHandler_prependLog : enterHandler (s.prependLog log) = (enterHandler s).prependLog log := rfl

@[simp] theorem leaveHandler_prependLog : leaveHandler (s.prependLog log) = (leaveHandler s).prependLog log := rfl

@[simp] theorem readStart_prependLog : readStart (s.prependLog log) = (readStart s).prependLog log := rfl

@[simp] theorem writeStart_prependLog (b : Byte) : writeStart b (s.prependLog log) = (writeStart b s).prependLog log := rfl

@[simp] theorem takePayload_prependLog (d : Level) :
    takePayload d (s.prependLog log) = (takePayload d s).prependLog log := rfl

@[simp] theorem takeAck_prependLog (p : ReadPos) : takeAck p (s.prependLog log) = (takeAck p s).prependLog log := by
  unfold takeAck; split <;> rfl

@[simp] theorem takeResponse_prependLog (p : ReadPos) :
    takeResponse p (s.prependLog log) = (takeResponse p s).prependLog log := by
  unfold takeResponse; split <;> rfl

@[simp] theorem advance_prependLog (d : Bool) : advance d (s.prependLog log) = (advance d s).prependLog log := by
  cases d <;> rfl

@[simp] theorem writeBit_prependLog (i : Nat) : writeBit i (s.prependLog log) = (writeBit i s).prependLog log := by
  unfold writeBit
  split
  · simp only [prependLog_wb, setData_prependLog]; rfl
  · split <;> simp

@[simp] theorem ctBegin_prependLog (it : Item) : ctBegin it (s.prependLog log) = (ctBegin it s).prependLog log := rfl

@[simp] theorem suspend_prependLog : suspend (s.prependLog log) = (suspend s).prependLog log := by
  unfold suspend; rw [apply_ite (State.prependLog log)]; rfl

@[simp] theorem resume_prependLog : resume (s.prependLog log) = (resume s).prependLog log := by
  unfold resume; simp only [prependLog_suspended]; split <;> rfl

@[simp] theorem returnResult_prependLog : returnResult (s.prependLog log) = (returnResult s).prependLog log := by
  unfold returnResult; rw [apply_ite (State.prependLog log), ← resume_prependLog]; rfl

@[simp] theorem latchEdge_prependLog (before : State) :
    latchEdge (before.prependLog log) (s.prependLog log) = (latchEdge before s).prependLog log := rfl

theorem nextEvent_prependLog :
    nextEvent (s.prependLog log) = ((nextEvent s).1, (nextEvent s).2.prependLog log) := by
  unfold nextEvent; simp only [prependLog_inputs]; split <;> rfl

/-! ## Operations that report append at the end of the log (R247) -/

@[simp] theorem report_prependLog (e : ErrorName) (c : DiagContext) (i : DiagInfo) :
    report e c i (s.prependLog log) = (report e c i s).prependLog log := by
  simp [report, State.prependLog]

@[simp] theorem check_prependLog (passes : Bool) (e : ErrorName) (c : DiagContext) (i : DiagInfo) :
    check passes e c i (s.prependLog log) = (check passes e c i s).prependLog log := by
  cases passes <;> simp

@[simp] theorem waitPoll_prependLog (t : Level) : waitPoll t (s.prependLog log) = (waitPoll t s).prependLog log := by
  unfold waitPoll
  rw [pollClock_prependLog]
  cases pollClock t s <;> simp

@[simp] theorem takeStart_prependLog (d : Level) : takeStart d (s.prependLog log) = (takeStart d s).prependLog log := by
  simp only [takeStart, check_prependLog]; rfl

@[simp] theorem takeParity_prependLog (d : Level) :
    takeParity d (s.prependLog log) = (takeParity d s).prependLog log := by
  simp only [takeParity, prependLog_frame, check_prependLog]; rfl

@[simp] theorem writeCheck_prependLog : writeCheck (s.prependLog log) = (writeCheck s).prependLog log := by
  simp only [writeCheck, prependLog_wb, check_prependLog]; rfl

@[simp] theorem lineControl_prependLog : lineControl (s.prependLog log) = (lineControl s).prependLog log := by
  simp only [lineControl, sampleLevel_prependLog, sampled_prependLog]
  rw [← check_prependLog]; rfl

@[simp] theorem readBit_prependLog (k : Nat) (d : Level) :
    readBit k d (s.prependLog log) = (readBit k d s).prependLog log := by
  unfold readBit
  split
  · simp
  split
  · rfl
  split
  · rw [← check_prependLog]; rfl
  · simp

@[simp] theorem readSample_prependLog (k : Nat) : readSample k (s.prependLog log) = (readSample k s).prependLog log := by
  simp only [readSample, sampleLevel_prependLog, sampled_prependLog]
  rw [← readBit_prependLog]; rfl

@[simp] theorem readEffect_prependLog (p : ReadPos) :
    readEffect p (s.prependLog log) = (readEffect p s).prependLog log := by
  rcases p with ⟨k, _ | _⟩ | k | ⟨k, _ | _⟩ | _ | ⟨_ | _⟩ | _ <;> simp only [readEffect]
  case waitLow.enter => split <;> simp
  all_goals simp

@[simp] theorem writeEffect_prependLog (b : Byte) (p : WritePos) :
    writeEffect b p (s.prependLog log) = (writeEffect b p s).prependLog log := by
  rcases p with _ | ⟨_ | _⟩ | _ | _ | ⟨i, _ | _⟩ | i | ⟨i, _ | _⟩ | ⟨_ | _⟩ | _ | ⟨_ | _⟩ | q | _ <;> simp [writeEffect]

/-! ## The agents' steps -/

/-- A read of an element that does not depend on the log, used in a way that carries the log through. -/
theorem readElement_prependLogs {α : Type} (element : Option α) (k k' : α → Result)
    (h : ∀ v, k' v = prependLogs log (k v)) : readElement element k' = prependLogs log (readElement element k) := by
  cases element with
  | none => rfl
  | some v => exact h v

theorem ctEnd_prependLog : ctEnd (s.prependLog log) = prependLogs log (ctEnd s) := by
  refine readElement_prependLogs log _ _ _ fun syn => ?_
  rw [prependLogs_next, ← returnResult_prependLog]; rfl

theorem engineStep_prependLog : engineStep (s.prependLog log) = prependLogs log (engineStep s) := by
  unfold engineStep
  simp only [prependLog_seq]
  split
  · rw [prependLogs_next, apply_ite (State.prependLog log)]; rfl
  · simp only [prependLog_op]; split <;> rfl
  · simp
  · exact readElement_prependLogs log _ _ _ fun b => by simp
  · simp
  · exact ctEnd_prependLog log s

theorem deliver_prependLog (c : Option Request) (b : Byte) :
    deliver c b (s.prependLog log) = prependLogs log (deliver c b s) := by
  cases c <;> rfl

theorem takeStop_prependLog (c : Option Request) (d : Level) :
    takeStop c d (s.prependLog log) = prependLogs log (takeStop c d s) := by
  simp only [takeStop, prependLog_frame, check_prependLog, deliver_prependLog]
  cases deliver c s.frame.accumulatedByte (check (stopOk d) .stopBitError .async (.byte s.frame.accumulatedByte) s) <;> rfl

theorem consumeBit_prependLog (c : Option Request) (d : Level) :
    consumeBit c d (s.prependLog log) = prependLogs log (consumeBit c d s) := by
  unfold consumeBit
  simp only [prependLog_frame, takeStart_prependLog, takePayload_prependLog, takeParity_prependLog,
    takeStop_prependLog, apply_ite (prependLogs log), prependLogs_next, prependLogs_fault]

theorem receiveStep_prependLog (c : Option Request) :
    receiveStep c (s.prependLog log) = prependLogs log (receiveStep c s) := by
  simp only [receiveStep, sampleLevel_prependLog, sampled_prependLog, consumeBit_prependLog,
    apply_ite (prependLogs log), prependLogs_next]

theorem handlerStep_prependLog (c : Option Request) :
    handlerStep c (s.prependLog log) = prependLogs log (handlerStep c s) := by
  simp only [handlerStep, handlerEnabled_prependLog, enterHandler_prependLog, receiveStep_prependLog]
  split
  · cases receiveStep c (enterHandler s) <;> rfl
  · rfl

theorem admission_prependLog (k : State → Result) (h : k (s.prependLog log) = prependLogs log (k s)) :
    admission (s.prependLog log) k = prependLogs log (admission s k) := by
  unfold admission
  rw [apply_ite (prependLogs log), apply_ite (prependLogs log), apply_ite (prependLogs log), ← h]; rfl

theorem startOperation_prependLog (items : List Item) :
    startOperation items (s.prependLog log) = prependLogs log (startOperation items s) := by
  refine admission_prependLog log s _ ?_
  cases items with
  | nil => rfl
  | cons it rest => simp only [suspend_prependLog]; rfl

theorem exec_prependLog (i : Instr) : exec i (s.prependLog log) = prependLogs log (exec i s) := by
  by_cases wf : i.WellFormed
  · rw [exec_eq_startOperation wf, exec_eq_startOperation wf]
    exact startOperation_prependLog log s _
  · cases i with
    | command desc args =>
      have hl : args.length ≠ sendCount desc := by simpa [Instr.WellFormed, Instr.wellFormed] using wf
      simp only [exec, execCommand, if_neg hl]
      exact admission_prependLog log s _ rfl
    | _ => exact absurd rfl wf

theorem execBegin_prependLog (c d : PinId) (k : CallbackId) :
    execBegin c d k (s.prependLog log) = prependLogs log (execBegin c d k s) := by
  unfold execBegin; rw [apply_ite (prependLogs log), apply_ite (prependLogs log), apply_ite (prependLogs log)]; rfl

theorem notAnOperation_prependLog : notAnOperation (s.prependLog log) = prependLogs log (notAnOperation s) := by
  unfold notAnOperation; rw [apply_ite (prependLogs log)]; rfl

theorem requestStep_prependLog (r : Request) :
    requestStep r (s.prependLog log) = prependLogs log (requestStep r s) := by
  cases r with
  | op w =>
    simp only [requestStep]
    split
    · exact exec_prependLog log s _
    · next e _ => cases e; exact admission_prependLog log s (fun _ => .refused .argCountMismatch) rfl
  | begin c d k => exact execBegin_prependLog log s c d k
  | writeByte b => exact notAnOperation_prependLog log s
  | readByteSync => exact notAnOperation_prependLog log s
  | link p => exact notAnOperation_prependLog log s

theorem applyEvent_prependLog (e : Event) : applyEvent e (s.prependLog log) = prependLogs log (applyEvent e s) := by
  cases e with
  | device l low => simp [applyEvent]
  | time d => rfl
  | engine => exact engineStep_prependLog log s
  | handler c => exact handlerStep_prependLog log s c
  | caller r => exact requestStep_prependLog log s r
  | readSnapshot => exact readElement_prependLogs log _ _ _ fun _ => rfl

/-- A step carries the log before it through, whatever it is (R40, R247). -/
theorem step_prependLog : step (s.prependLog log) = prependLogs log (step s) := by
  simp only [step, nextEvent_prependLog, applyEvent_prependLog]
  cases applyEvent (nextEvent s).1 (nextEvent s).2 <;> rfl

/-- A state with a given log is the state with no log, with that one put before. -/
theorem withLog_eq_prependLog : { s with diagLog := log } = { s with diagLog := [] }.prependLog log := by
  simp [State.prependLog]

/-- A step with any log is the step with no log, with that one put before what it answers. -/
theorem step_withLog : step { s with diagLog := log } = prependLogs log (step { s with diagLog := [] }) := by
  rw [withLog_eq_prependLog, step_prependLog]

end

/-- Settles O56: the step from the empty log has the reports alone, and with any other log they come after it. -/
theorem diagnosticLogIsNeverRead : Obligations.DiagnosticLogIsNeverRead := by
  unfold Obligations.DiagnosticLogIsNeverRead
  intro s log
  have own : step s = prependLogs s.diagLog (step { s with diagLog := [] }) := step_withLog s.diagLog s
  rw [own, step_withLog log s]
  cases step { s with diagLog := [] } with
  | next u =>
    refine ⟨fun t ht => ?_, nofun, nofun⟩
    injection ht with ht
    subst ht
    exact ⟨u.diagLog, rfl, rfl⟩
  | fault f => simp
  | refused r => simp

end Sys2Proof.Machine
end

section
/-! PROOFS. Who writes the gate, the receive frame and the environment's state (R21, R26, R27, R30, R36): what each
agent's step can do to them is said once, and read off over a step of the machine. -/

namespace Sys2Proof.Machine

/-! ## The event of a step -/

/-- A step with a next state is its event's effect on a state that differs in the model's own fields only, then the edge
detector's look (R63, R109). -/
theorem step_event {s t : State} (h : step s = .next t) :
    ∃ inputs choices u, applyEvent (nextEvent s).1 { s with inputs := inputs, choices := choices } = .next u ∧
      t = latchEdge { s with inputs := inputs, choices := choices } u := by
  obtain ⟨u, hu, ht⟩ := step_next h
  obtain ⟨e, rest, -, he⟩ | ⟨-, he⟩ := nextEvent_snd s
  · rw [he] at hu ht ⊢
    exact ⟨rest, s.choices, u, hu, ht⟩
  · rw [he] at hu ht ⊢
    exact ⟨s.inputs, s.choices + 1, u, hu, ht⟩

/-! ## The receive side: the gate and the frame -/

/-- The receive side as `CT_BEGIN` leaves it: the gate closed, the frame idle, the transaction at its first write (R166). -/
structure State.TxnBegun (t : State) : Prop where
  gate : t.gate = false
  frame : t.frame = Frame.idle
  inTxn : t.inTxn = true
  seq : t.seq = .ctOpcode .rtsClk

theorem ctBegin_txnBegun (it : Item) (s : State) : (ctBegin it s).TxnBegun := ⟨rfl, rfl, rfl, rfl⟩

/-- The engine leaves the receive side alone, but for `CT_BEGIN` and `CT_END`, which opens the gate (R166, R169). -/
theorem engineStep_receiveSide {s t : State} (h : engineStep s = .next t) :
    (t.gate = s.gate ∧ t.frame = s.frame) ∨ (s.seq = .ctBegin ∧ t.TxnBegun) ∨
    (s.seq = .ctEnd ∧ t.gate = true ∧ t.inTxn = false ∧ t.frame = s.frame) := by
  obtain ⟨-, -, rfl⟩ | ⟨-, -, rfl⟩ | ⟨-, -, rfl⟩ | ⟨it, rest, hs, -, rfl⟩ | ⟨p, -, rfl⟩ | ⟨i, p, b, -, -, rfl⟩ |
    ⟨j, p, -, rfl⟩ | ⟨hs, hc⟩ := engineStep_cases h
  · exact .inl ⟨rfl, rfl⟩
  · exact .inl ⟨rfl, rfl⟩
  · exact .inl ⟨rfl, rfl⟩
  · exact .inr (.inl ⟨hs, ctBegin_txnBegun it _⟩)
  · exact .inl (by simp)
  · exact .inl (by simp)
  · exact .inl (by simp)
  · obtain ⟨syn, -, rfl⟩ := ctEnd_cases hc
    exact .inr (.inr ⟨hs, by simp⟩)

/-- When the handler's step is enabled (R121). -/
theorem handlerEnabled_iff {s : State} :
    s.handlerEnabled = true ↔ s.edgePending = true ∧ s.gate = true ∧ s.inHandler = false := by
  simp [State.handlerEnabled, and_assoc]

/-- The handler leaves the gate alone, and the frame too where its step is not enabled (R121, R122, R129). -/
theorem handlerStep_receiveSide {c : Option Request} {s t : State} (h : handlerStep c s = .next t) :
    t.gate = s.gate ∧ (t.frame = s.frame ∨ s.handlerEnabled = true) := by
  obtain ⟨-, rfl⟩ | ⟨he, -, rfl⟩ | ⟨he, -, u, hu, rfl⟩ := handlerStep_cases h
  · exact ⟨rfl, .inl rfl⟩
  · exact ⟨by simp, .inr he⟩
  · refine ⟨?_, .inr he⟩
    obtain ⟨-, rfl⟩ | ⟨-, -, rfl⟩ | ⟨-, rfl⟩ | ⟨-, -, rfl⟩ := consumeBit_cases hu <;> simp

/-- A request that is carried out begins a transaction, or is `begin`, which opens the gate on an idle frame (R166, R280). -/
theorem requestStep_receiveSide {r : Request} {s t : State} (h : requestStep r s = .next t) :
    ((∃ w, r = .op w) ∧ t.TxnBegun) ∨ ((∃ c d k, r = .begin c d k) ∧ t.gate = true ∧ t.frame = Frame.idle) := by
  obtain ⟨i, it, rest, -, ⟨-, w, rfl, -⟩, -, rfl⟩ | ⟨c, d, k, ⟨-, rfl⟩, -, -, rfl⟩ := requestStep_cases h
  · exact .inl ⟨⟨w, rfl⟩, ctBegin_txnBegun it _⟩
  · exact .inr ⟨⟨c, d, k, rfl⟩, rfl, rfl⟩

/-- Whether a step's event begins a transaction: a caller's operation, or the engine at `CT_BEGIN` (R165, R210-R215). -/
def beginsTxn (e : Event) (s : State) : Prop := (∃ w, e = .caller (.op w)) ∨ (e = .engine ∧ s.seq = .ctBegin)

/-- What an event can do to the receive side: nothing; a handler step that is enabled writes the frame; a transaction's
start; its end opens the gate; `begin`. -/
theorem applyEvent_receiveSide {e : Event} {s t : State} (h : applyEvent e s = .next t) :
    (t.gate = s.gate ∧ t.frame = s.frame) ∨
    ((∃ c, e = .handler c) ∧ s.handlerEnabled = true ∧ t.gate = s.gate) ∨
    (beginsTxn e s ∧ t.TxnBegun) ∨
    ((e = .engine ∧ s.seq = .ctEnd) ∧ t.gate = true ∧ t.inTxn = false ∧ t.frame = s.frame) ∨
    ((∃ c d k, e = .caller (.begin c d k)) ∧ t.gate = true ∧ t.frame = Frame.idle) := by
  cases e with
  | device l low => injection h with h; exact .inl (by simp [← h])
  | time d => injection h with h; exact .inl (by simp [← h])
  | engine =>
    obtain same | ⟨hs, ht⟩ | ⟨hs, ht⟩ := engineStep_receiveSide h
    · exact .inl same
    · exact .inr (.inr (.inl ⟨.inr ⟨rfl, hs⟩, ht⟩))
    · exact .inr (.inr (.inr (.inl ⟨⟨rfl, hs⟩, ht⟩)))
  | handler c =>
    obtain ⟨hg, hf | he⟩ := handlerStep_receiveSide h
    · exact .inl ⟨hg, hf⟩
    · exact .inr (.inl ⟨⟨c, rfl⟩, he, hg⟩)
  | caller r =>
    obtain ⟨⟨w, rfl⟩, ht⟩ | ⟨⟨c, d, k, rfl⟩, ht⟩ := requestStep_receiveSide h
    · exact .inr (.inr (.inl ⟨.inl ⟨w, rfl⟩, ht⟩))
    · exact .inr (.inr (.inr (.inr ⟨⟨c, d, k, rfl⟩, ht⟩)))
  | readSnapshot => rw [readSnapshot_next h]; exact .inl ⟨rfl, rfl⟩

/-- And so a step of the machine. -/
theorem step_receiveSide {s t : State} (h : step s = .next t) :
    (t.gate = s.gate ∧ t.frame = s.frame) ∨
    ((∃ c, (nextEvent s).1 = .handler c) ∧ s.handlerEnabled = true ∧ t.gate = s.gate) ∨
    (beginsTxn (nextEvent s).1 s ∧ t.TxnBegun) ∨
    (((nextEvent s).1 = .engine ∧ s.seq = .ctEnd) ∧ t.gate = true ∧ t.inTxn = false ∧ t.frame = s.frame) ∨
    ((∃ c d k, (nextEvent s).1 = .caller (.begin c d k)) ∧ t.gate = true ∧ t.frame = Frame.idle) := by
  obtain ⟨l, n, u, hu, rfl⟩ := step_event h
  obtain same | handler | ⟨hb, hg, hf, ht, hq⟩ | ends | setup := applyEvent_receiveSide hu
  · exact .inl same
  · exact .inr (.inl handler)
  · exact .inr (.inr (.inl ⟨hb, hg, hf, ht, hq⟩))
  · exact .inr (.inr (.inr (.inl ends)))
  · exact .inr (.inr (.inr (.inr setup)))

/-- Settles O57, by what a step can do to the receive side. -/
theorem onlyThreeEventsWriteTheGate : Obligations.OnlyThreeEventsWriteTheGate := by
  unfold Obligations.OnlyThreeEventsWriteTheGate
  intro s t h changed
  obtain ⟨hg, -⟩ | ⟨-, -, hg⟩ | ⟨hb, ht⟩ | ⟨⟨he, hs⟩, hg, hi, -⟩ | ⟨hb, hg, -⟩ := step_receiveSide h
  · exact absurd hg changed
  · exact absurd hg changed
  · exact .inr (.inl ⟨ht.gate, ht.inTxn, ht.seq, hb⟩)
  · exact .inr (.inr ⟨hg, hi, he, hs⟩)
  · exact .inl ⟨hg, hb⟩

/-- Settles O58, by what a step can do to the receive side. -/
theorem onlyThreeEventsWriteTheFrame : Obligations.OnlyThreeEventsWriteTheFrame := by
  unfold Obligations.OnlyThreeEventsWriteTheFrame
  intro s t h changed
  obtain ⟨-, hf⟩ | ⟨⟨c, hc⟩, he, -⟩ | ⟨hb, ht⟩ | ⟨-, -, -, hf⟩ | ⟨hb, -, hf⟩ := step_receiveSide h
  · exact absurd hf changed
  · obtain ⟨hp, hg, -⟩ := handlerEnabled_iff.mp he
    exact .inl ⟨c, hc, hg, hp⟩
  · exact .inr (.inl ⟨ht.frame, ht.inTxn, ht.seq, hb⟩)
  · exact absurd hf changed
  · exact .inr (.inr ⟨hf, hb⟩)

/-! ## The environment: the link's configuration, time and the device's ends -/

/-- Two states have the same link configuration, time and device ends. -/
structure State.SameEnvironment (t s : State) : Prop where
  link : t.link = s.link
  now : t.now = s.now
  clkDevLow : t.clkDevLow = s.clkDevLow
  dataDevLow : t.dataDevLow = s.dataDevLow

theorem engineStep_sameEnvironment {s t : State} (h : engineStep s = .next t) : t.SameEnvironment s := by
  obtain ⟨-, -, rfl⟩ | ⟨-, -, rfl⟩ | ⟨-, -, rfl⟩ | ⟨it, rest, -, -, rfl⟩ | ⟨p, -, rfl⟩ | ⟨i, p, b, -, -, rfl⟩ |
    ⟨j, p, -, rfl⟩ | ⟨-, hc⟩ := engineStep_cases h
  case inr.inr.inr.inr.inr.inr.inr =>
    obtain ⟨syn, -, rfl⟩ := ctEnd_cases hc
    constructor <;> simp
  all_goals constructor <;> simp

theorem handlerStep_sameEnvironment {c : Option Request} {s t : State} (h : handlerStep c s = .next t) :
    t.SameEnvironment s := by
  obtain ⟨-, rfl⟩ | ⟨-, -, rfl⟩ | ⟨-, -, u, hu, rfl⟩ := handlerStep_cases h
  · exact ⟨rfl, rfl, rfl, rfl⟩
  · constructor <;> simp
  · obtain ⟨-, rfl⟩ | ⟨-, -, rfl⟩ | ⟨-, rfl⟩ | ⟨-, -, rfl⟩ := consumeBit_cases hu <;> constructor <;> simp

/-- A request leaves time and the device's ends alone, and the link too unless it is `begin` (R280). -/
theorem requestStep_environment {r : Request} {s t : State} (h : requestStep r s = .next t) :
    t.SameEnvironment { s with link := t.link } ∧
    (t.link = s.link ∨ ∃ c d k, r = .begin c d k ∧ t.link = { clockPin := c, dataPin := d, callback := k }) := by
  obtain ⟨i, it, rest, -, -, -, rfl⟩ | ⟨c, d, k, ⟨-, rfl⟩, -, -, rfl⟩ := requestStep_cases h
  · exact ⟨by constructor <;> simp, .inl (by simp)⟩
  · exact ⟨by constructor <;> simp, .inr ⟨c, d, k, rfl, rfl⟩⟩

/-- What an event can do to the environment's state: nothing, or what `begin`, time and the device do to their own part. -/
theorem applyEvent_environment {e : Event} {s t : State} (h : applyEvent e s = .next t) :
    t.SameEnvironment s ∨
    (∃ c d k, e = .caller (.begin c d k) ∧
      t.SameEnvironment { s with link := { clockPin := c, dataPin := d, callback := k } }) ∨
    (∃ d, e = .time d ∧ t.SameEnvironment { s with now := s.now + d }) ∨
    (∃ l low, e = .device l low ∧ t.link = s.link ∧ t.now = s.now) := by
  cases e with
  | device l low => injection h with h; exact .inr (.inr (.inr ⟨l, low, rfl, by simp [← h]⟩))
  | time d => injection h with h; exact .inr (.inr (.inl ⟨d, rfl, by subst h; constructor <;> rfl⟩))
  | engine => exact .inl (engineStep_sameEnvironment h)
  | handler c => exact .inl (handlerStep_sameEnvironment h)
  | caller r =>
    obtain ⟨same, hl | ⟨c, d, k, rfl, hl⟩⟩ := requestStep_environment h
    · rw [hl] at same; exact .inl same
    · rw [hl] at same; exact .inr (.inl ⟨c, d, k, rfl, same⟩)
  | readSnapshot => rw [readSnapshot_next h]; exact .inl ⟨rfl, rfl, rfl, rfl⟩

/-- And so a step of the machine. -/
theorem step_environment {s t : State} (h : step s = .next t) :
    t.SameEnvironment s ∨
    (∃ c d k, (nextEvent s).1 = .caller (.begin c d k) ∧
      t.SameEnvironment { s with link := { clockPin := c, dataPin := d, callback := k } }) ∨
    (∃ d, (nextEvent s).1 = .time d ∧ t.SameEnvironment { s with now := s.now + d }) ∨
    (∃ l low, (nextEvent s).1 = .device l low ∧ t.link = s.link ∧ t.now = s.now) := by
  obtain ⟨l, n, u, hu, rfl⟩ := step_event h
  obtain ⟨hl, hn, hc, hd⟩ | ⟨c, d, k, he, hl, hn, hc, hd⟩ | ⟨d, he, hl, hn, hc, hd⟩ | device := applyEvent_environment hu
  · exact .inl ⟨hl, hn, hc, hd⟩
  · exact .inr (.inl ⟨c, d, k, he, hl, hn, hc, hd⟩)
  · exact .inr (.inr (.inl ⟨d, he, hl, hn, hc, hd⟩))
  · exact .inr (.inr (.inr device))

theorem step_cfg {s t : State} (h : step s = .next t) : t.cfg = s.cfg := by
  obtain ⟨l, n, u, hu, rfl⟩ := step_event h
  simpa using applyEvent_cfg hu

/-- Settles O59, by what a step can do to the environment's state. -/
theorem environmentStateChangesByItsOwnEventsAlone : Obligations.EnvironmentStateChangesByItsOwnEventsAlone := by
  unfold Obligations.EnvironmentStateChangesByItsOwnEventsAlone
  intro s t h
  refine ⟨step_cfg h, ?_⟩
  obtain ⟨hl, hn, hc, hd⟩ | ⟨c, d, k, he, hl, hn, hc, hd⟩ | ⟨d, he, hl, hn, hc, hd⟩ | ⟨l, low, he, hl, hn⟩ :=
    step_environment h
  · exact ⟨Nat.le_of_eq hn.symm, fun hl' => absurd hl hl', fun hn' => absurd hn hn', (Or.elim · (absurd hc) (absurd hd))⟩
  · exact ⟨Nat.le_of_eq hn.symm, fun _ => ⟨c, d, k, he, hl⟩, fun hn' => absurd hn hn', (Or.elim · (absurd hc) (absurd hd))⟩
  · exact ⟨by simp [hn], fun hl' => absurd hl hl', fun _ => ⟨d, he, hn⟩, (Or.elim · (absurd hc) (absurd hd))⟩
  · exact ⟨Nat.le_of_eq hn.symm, fun hl' => absurd hl hl', fun hn' => absurd hn hn', fun _ => ⟨l, low, he⟩⟩

end Sys2Proof.Machine
end

section
/-! PROOFS. The reset state (R42, R280) and the read of the snapshot (R38). -/

namespace Sys2Proof.Machine

/-! ## The reset state -/

/-- The state before `begin` of which `begin` makes the reset state: not configured, and the gate closed (R281, log 1). -/
def State.preReset : State := { State.reset with configured := false, gate := false }

theorem preReset_beforeBegin : State.preReset.BeforeBegin := by
  constructor <;> rfl

theorem begin_preReset : requestStep (.begin .first .second 0) State.preReset = .next State.reset := rfl

/-- `T_READY_PULSE > 0`, though its value is open (R8). -/
theorem reset_tReadyPulse_pos : 0 < State.reset.cfg.tReadyPulse := Nat.succ_pos _

/-- Settles O29, from `State.preReset`. -/
theorem resetIsTheStateAfterBegin : Obligations.ResetIsTheStateAfterBegin := by
  unfold Obligations.ResetIsTheStateAfterBegin
  exact ⟨⟨State.preReset, preReset_beforeBegin, begin_preReset⟩, rfl, rfl, reset_tReadyPulse_pos, rfl, rfl, rfl, rfl, rfl,
    rfl, rfl, rfl, rfl, rfl, rfl, rfl, rfl, rfl⟩

theorem reset_frameInv : State.reset.FrameInv := by
  constructor <;> decide

theorem reset_modeInv : State.reset.ModeInv where
  handlerOff := rfl
  gate := rfl
  txnConfigured _ := rfl
  txnSeq := rfl
  frameIdle _ := rfl
  edgeConfigured _ := rfl
  beginHasItem h := nomatch h
  waitingConfigured _ := rfl
  suspendedWait _ ho := nomatch ho
  suspendedUnder _ _ := rfl

theorem reset_txnInv : State.reset.TxnInv where
  argCount h := nomatch h
  position := trivial
  itemArgs _ hit := nomatch hit
  itemPosts _ hit := nomatch hit
  post h := nomatch h
  ready h := nomatch h

theorem reset_wireInv : State.reset.WireInv where
  writing _ _ h := nomatch h
  reading _ h := nomatch h
  response _ _ h := nomatch h
  atEnd h := nomatch h

/-- Settles O53, invariant by invariant. -/
theorem resetMeetsTheInvariant : Obligations.ResetMeetsTheInvariant where
  frame := reset_frameInv
  mode := reset_modeInv
  txn := reset_txnInv
  wire := reset_wireInv
  time := Nat.le_refl 0
  pulse := reset_tReadyPulse_pos

/-! ## The snapshot -/

/-- What is still to be kept never takes a completed initialization's snapshot away, so there is one now. -/
theorem postsReady_complete {y : SynState} {posts : List Post} (h : postsReady y posts) : y.complete := by
  cases posts with
  | nil => exact h
  | cons p rest => exact h.1

/-- Settles O44: the store reads as unwritten before the initialization, and the invariant gives its snapshot after it. -/
theorem snapshotReadNeedsTheInitialization : Obligations.SnapshotReadNeedsTheInitialization := by
  unfold Obligations.SnapshotReadNeedsTheInitialization
  refine fun s => ⟨fun hd => ?_, fun inv hd => ?_⟩
  · simp [applyEvent, readSnapshot, SynState.read, hd]
  · have written : s.syn.snapshot.isSome = true := postsReady_complete inv.ready hd
    obtain ⟨v, hv⟩ := Option.isSome_iff_exists.mp written
    exact ⟨written, by simp [applyEvent, readSnapshot, SynState.read, hd, hv]⟩

end Sys2Proof.Machine
end

section
/-! PROOFS. A step runs the decoded operation (R63, R67), and who writes the pads, the Synaptics store and the results
(R38, R62, R215, R219, R254): what each agent's step can do to them is said once, and read off over a step of the
machine. -/

namespace Sys2Proof.Machine

/-! ## The decoded operation -/

/-- As many arguments as the descriptor announces make a well-formed operation: a mnemonic always is one, and the generic
command then has its argument count (R81, R171). -/
theorem recognise_wellFormed {desc : Descriptor} {args : List Byte} (h : args.length = sendCount desc) :
    (recognise desc args).WellFormed := by
  have command : (Instr.command desc args).WellFormed := by simpa [Instr.WellFormed, Instr.wellFormed] using h
  unfold recognise
  iterate 5
    split
    · rfl
  split
  · split
    · rfl
    split
    · rfl
    · exact command
  · exact command

theorem decode_wellFormed {w : OpWords} {i : Instr} (h : decode w = .ok i) : i.WellFormed := by
  cases w with
  | descriptor desc args =>
    rw [decode] at h
    split at h
    · next count => injection h with h; exact h ▸ recognise_wellFormed count
    · cases h
  | _ => injection h with h; subst h; rfl

theorem requestStep_decoded {w : OpWords} {i : Instr} (h : decode w = .ok i) (s : State) :
    requestStep (.op w) s = exec i s := by
  simp [requestStep, h]

theorem decode_tableWords {nbits w : Nat} {i : Instr} (h : decodeTableWord nbits w = some i) :
    decode (tableWords nbits w) = .ok i := by
  unfold decodeTableWord at h
  split at h
  · next j hj => injection h with h; rw [hj, h]
  · cases h

/-- A step on the request of words that decode to an operation (R63, R67, R109). -/
theorem step_request {s : State} {w : OpWords} {rest : List Event} {i : Instr} (hs : s.inputs = .caller (.op w) :: rest)
    (hd : decode w = .ok i) :
    step s = observed { s with inputs := rest } (exec i { s with inputs := rest }) := by
  rw [step_listed hs, applyEvent, requestStep_decoded hd]

/-- Settles O35, by what a step on a listed request does. -/
theorem stepRunsTheDecodedOperation : Obligations.StepRunsTheDecodedOperation := by
  unfold Obligations.StepRunsTheDecodedOperation
  refine ⟨fun s w rest i hs hd => ⟨decode_wellFormed hd, step_request hs hd⟩, fun s nbits w i h => ?_⟩
  exact step_request (s := s.withFetchWord nbits w) rfl (decode_tableWords h)

/-! ## The pads -/

/-- Two states have the same pads. -/
structure State.SamePads (t s : State) : Prop where
  clkPad : t.clkPad = s.clkPad
  dataPad : t.dataPad = s.dataPad

/-- The engine writes the pads within a transaction only: `IDLE` and `CT_BEGIN` leave them alone (R62, R166). -/
theorem engineStep_pads {s t : State} (h : engineStep s = .next t) : t.SamePads s ∨ s.seq.inTransaction = true := by
  obtain ⟨-, -, rfl⟩ | ⟨-, -, rfl⟩ | ⟨-, -, rfl⟩ | ⟨it, rest, -, -, rfl⟩ | ⟨p, hs, -⟩ | ⟨i, p, b, hs, -, -⟩ |
    ⟨j, p, hs, -⟩ | ⟨hs, -⟩ := engineStep_cases h
  · exact .inl ⟨rfl, rfl⟩
  · exact .inl ⟨rfl, rfl⟩
  · exact .inl ⟨rfl, rfl⟩
  · exact .inl ⟨rfl, rfl⟩
  · exact .inr (by rw [hs]; rfl)
  · exact .inr (by rw [hs]; rfl)
  · exact .inr (by rw [hs]; rfl)
  · exact .inr (by rw [hs]; rfl)

theorem handlerStep_pads {c : Option Request} {s t : State} (h : handlerStep c s = .next t) :
    t.SamePads s ∨ s.handlerEnabled = true := by
  obtain ⟨-, rfl⟩ | ⟨he, -⟩ | ⟨he, -⟩ := handlerStep_cases h
  · exact .inl ⟨rfl, rfl⟩
  · exact .inr he
  · exact .inr he

/-- Of the requests `begin` alone writes the pads: an operation's request only begins its first transaction (R280, R166). -/
theorem requestStep_pads {r : Request} {s t : State} (h : requestStep r s = .next t) :
    t.SamePads s ∨ ∃ c d k, r = .begin c d k := by
  obtain ⟨i, it, rest, -, -, -, rfl⟩ | ⟨c, d, k, ⟨-, rfl⟩, -⟩ := requestStep_cases h
  · exact .inl ⟨by simp, by simp⟩
  · exact .inr ⟨c, d, k, rfl⟩

/-- What an event can do to the pads: nothing, unless it is a handler step that is enabled, an engine step within a
transaction, or `begin`. -/
theorem applyEvent_pads {e : Event} {s t : State} (h : applyEvent e s = .next t) :
    t.SamePads s ∨ ((∃ c, e = .handler c) ∧ s.handlerEnabled = true) ∨ (e = .engine ∧ s.seq.inTransaction = true) ∨
    ∃ c d k, e = .caller (.begin c d k) := by
  cases e with
  | device l low => injection h with h; exact .inl (by subst h; constructor <;> simp)
  | time d => injection h with h; exact .inl (by subst h; constructor <;> rfl)
  | engine => exact (engineStep_pads h).imp_right fun hs => .inr (.inl ⟨rfl, hs⟩)
  | handler c => exact (handlerStep_pads h).imp_right fun he => .inl ⟨⟨c, rfl⟩, he⟩
  | caller r =>
    obtain same | ⟨c, d, k, rfl⟩ := requestStep_pads h
    · exact .inl same
    · exact .inr (.inr (.inr ⟨c, d, k, rfl⟩))
  | readSnapshot => rw [readSnapshot_next h]; exact .inl ⟨rfl, rfl⟩

/-- And so a step of the machine. -/
theorem step_pads {s t : State} (h : step s = .next t) :
    t.SamePads s ∨ ((∃ c, (nextEvent s).1 = .handler c) ∧ s.handlerEnabled = true) ∨
    ((nextEvent s).1 = .engine ∧ s.seq.inTransaction = true) ∨ ∃ c d k, (nextEvent s).1 = .caller (.begin c d k) := by
  obtain ⟨l, n, u, hu, rfl⟩ := step_event h
  obtain ⟨hc, hd⟩ | owner := applyEvent_pads hu
  · exact .inl ⟨hc, hd⟩
  · exact .inr owner

/-! ## The Synaptics store and the results -/

/-- Two states have the same Synaptics store and the same results. -/
structure State.SameResults (t s : State) : Prop where
  syn : t.syn = s.syn
  resultStream : t.resultStream = s.resultStream

/-- What `CT_END` writes of the two, against the operation that ends: the store only if something is kept, the results only
if no transaction is left (R20, R215, R217). -/
structure State.EndsTxnOf (t s : State) : Prop where
  syn : t.syn ≠ s.syn → s.op.post ≠ .nothing
  resultStream : t.resultStream ≠ s.resultStream → s.op.todo = []

theorem ctEnd_endsTxnOf {s t : State} (h : ctEnd s = .next t) : t.EndsTxnOf s := by
  obtain ⟨syn, hsyn, rfl⟩ := ctEnd_cases h
  constructor
  · intro changed nothingKept
    rw [nothingKept] at hsyn
    injection hsyn with hsyn
    exact changed (by simp [hsyn])
  · intro changed
    by_cases left : s.op.todo = []
    · exact left
    · exact absurd (by simp [left]) changed

/-- The engine leaves the store and the results alone, but for `CT_END`. -/
theorem engineStep_results {s t : State} (h : engineStep s = .next t) :
    t.SameResults s ∨ (s.seq = .ctEnd ∧ t.EndsTxnOf s) := by
  obtain ⟨-, -, rfl⟩ | ⟨-, -, rfl⟩ | ⟨-, -, rfl⟩ | ⟨it, rest, -, -, rfl⟩ | ⟨p, -, rfl⟩ | ⟨i, p, b, -, -, rfl⟩ |
    ⟨j, p, -, rfl⟩ | ⟨hs, hc⟩ := engineStep_cases h
  · exact .inl ⟨rfl, rfl⟩
  · exact .inl ⟨rfl, rfl⟩
  · exact .inl ⟨rfl, rfl⟩
  · exact .inl ⟨rfl, rfl⟩
  · exact .inl ⟨by simp, by simp⟩
  · exact .inl ⟨by simp, by simp⟩
  · exact .inl ⟨by simp, by simp⟩
  · exact .inr ⟨hs, ctEnd_endsTxnOf hc⟩

theorem handlerStep_sameResults {c : Option Request} {s t : State} (h : handlerStep c s = .next t) : t.SameResults s := by
  obtain ⟨-, rfl⟩ | ⟨-, -, rfl⟩ | ⟨-, -, u, hu, rfl⟩ := handlerStep_cases h
  · exact ⟨rfl, rfl⟩
  · constructor <;> simp
  · obtain ⟨-, rfl⟩ | ⟨-, -, rfl⟩ | ⟨-, rfl⟩ | ⟨-, -, rfl⟩ := consumeBit_cases hu <;> constructor <;> simp

theorem requestStep_sameResults {r : Request} {s t : State} (h : requestStep r s = .next t) : t.SameResults s := by
  obtain ⟨i, it, rest, -, -, -, rfl⟩ | ⟨c, d, k, -, -, -, rfl⟩ := requestStep_cases h <;> constructor <;> simp

/-- What an event can do to the store and the results: nothing, unless it is the engine's `CT_END`. -/
theorem applyEvent_results {e : Event} {s t : State} (h : applyEvent e s = .next t) :
    t.SameResults s ∨ ((e = .engine ∧ s.seq = .ctEnd) ∧ t.EndsTxnOf s) := by
  cases e with
  | device l low => injection h with h; exact .inl (by subst h; constructor <;> simp)
  | time d => injection h with h; exact .inl (by subst h; constructor <;> rfl)
  | engine => exact (engineStep_results h).imp_right fun ⟨hs, ends⟩ => ⟨⟨rfl, hs⟩, ends⟩
  | handler c => exact .inl (handlerStep_sameResults h)
  | caller r => exact .inl (requestStep_sameResults h)
  | readSnapshot => rw [readSnapshot_next h]; exact .inl ⟨rfl, rfl⟩

/-- And so a step of the machine. -/
theorem step_results {s t : State} (h : step s = .next t) :
    t.SameResults s ∨ (((nextEvent s).1 = .engine ∧ s.seq = .ctEnd) ∧ t.EndsTxnOf s) := by
  obtain ⟨l, n, u, hu, rfl⟩ := step_event h
  obtain ⟨hs, hr⟩ | ⟨he, hs, hr⟩ := applyEvent_results hu
  · exact .inl ⟨hs, hr⟩
  · exact .inr ⟨he, hs, hr⟩

/-- Settles O60, by what a step can do to the pads, and to the store and the results. -/
theorem onlyTheirOwnersWriteThePadsTheStoreAndTheResults :
    Obligations.OnlyTheirOwnersWriteThePadsTheStoreAndTheResults := by
  unfold Obligations.OnlyTheirOwnersWriteThePadsTheStoreAndTheResults
  intro s t h
  constructor
  · intro changed
    obtain ⟨hc, hd⟩ | ⟨hh, he⟩ | engine | setup := step_pads h
    · exact changed.elim (absurd hc) (absurd hd)
    · obtain ⟨hp, hg, -⟩ := handlerEnabled_iff.mp he
      exact .inl ⟨hh, hg, hp⟩
    · exact .inr (.inl engine)
    · exact .inr (.inr setup)
  · obtain ⟨hs, hr⟩ | ⟨⟨he, hq⟩, ends⟩ := step_results h
    · exact ⟨fun changed => absurd hs changed, fun changed => absurd hr changed⟩
    · exact ⟨fun changed => ⟨he, hq, ends.syn changed⟩, fun changed => ⟨he, hq, ends.resultStream changed⟩⟩

end Sys2Proof.Machine
end

section
/-! PROOFS. Encodings (R71, R75-R81, R84, R85): the fields of a descriptor, the decoder against the encoder, the slices
of an encoded byte and the parity of a byte. -/

namespace Sys2Proof.Machine

/-! ## The fields of a descriptor (R71) -/

theorem sendCount_eq_div (desc : Descriptor) : sendCount desc = desc.toNat / 4096 := by
  have := desc.isLt
  simp only [sendCount, BitVec.extractLsb'_toNat, Nat.shiftRight_eq_div_pow]
  omega

theorem recvCount_eq_div_mod (desc : Descriptor) : recvCount desc = desc.toNat / 256 % 16 := by
  simp [recvCount, BitVec.extractLsb'_toNat, Nat.shiftRight_eq_div_pow]

theorem toNat_opcodeByte (desc : Descriptor) : (opcodeByte desc).toNat = desc.toNat % 256 := by
  simp [opcodeByte, BitVec.extractLsb'_toNat]

/-- Settles O2: the fields are digits of one number, which they give back. -/
theorem descriptorFieldsAreItsNibblesAndLowByte : Obligations.DescriptorFieldsAreItsNibblesAndLowByte := by
  unfold Obligations.DescriptorFieldsAreItsNibblesAndLowByte
  intro desc
  refine ⟨sendCount_eq_div desc, recvCount_eq_div_mod desc, toNat_opcodeByte desc, ?_⟩
  rw [sendCount_eq_div, recvCount_eq_div_mod, toNat_opcodeByte]
  omega

/-! ## What the decoder recognises (R80, R81) -/

/-- Only the seven listed descriptors are recognised. -/
theorem recognise_unlisted {desc : Descriptor} (h : desc ∉ listedDescriptors) (args : List Byte) :
    recognise desc args = .command desc args := by
  simp only [listedDescriptors, List.mem_cons, List.not_mem_nil, or_false, not_or] at h
  obtain ⟨h1, h2, h3, h4, h5, h6, h7⟩ := h
  unfold recognise
  rw [if_neg h1, if_neg h3, if_neg h4, if_neg h5, if_neg h7]
  split
  · rw [if_neg h2, if_neg h6]
  · rfl

/-- With the arguments it announces, a listed descriptor is a mnemonic's: one that is its own spelling, and that is encoded
as that descriptor with those arguments. -/
theorem recognise_listed {desc : Descriptor} {args : List Byte} (h : desc ∈ listedDescriptors)
    (count : args.length = sendCount desc) :
    encode (recognise desc args) = .descriptor desc args ∧ (recognise desc args).canonical = recognise desc args := by
  simp only [listedDescriptors, List.mem_cons, List.not_mem_nil, or_false] at h
  obtain rfl | rfl | rfl | rfl | rfl | rfl | rfl := h
  case inr.inl | inr.inr.inr.inr.inr.inl =>
    obtain ⟨x, rfl⟩ := List.length_eq_one_iff.mp count
    exact ⟨rfl, rfl⟩
  all_goals
    obtain rfl := List.eq_nil_of_length_eq_zero count
    exact ⟨rfl, rfl⟩

theorem encode_recognise {desc : Descriptor} {args : List Byte} (count : args.length = sendCount desc) :
    encode (recognise desc args) = .descriptor desc args := by
  by_cases h : desc ∈ listedDescriptors
  · exact (recognise_listed h count).1
  · rw [recognise_unlisted h, encode]

theorem canonical_recognise {desc : Descriptor} {args : List Byte} (count : args.length = sendCount desc) :
    (recognise desc args).canonical = recognise desc args := by
  by_cases h : desc ∈ listedDescriptors
  · exact (recognise_listed h count).2
  · rw [recognise_unlisted h, Instr.canonical, recognise_unlisted h]

/-! ## The decoder and the encoder -/

theorem wellFormed_command_iff {desc : Descriptor} {args : List Byte} :
    (Instr.command desc args).WellFormed ↔ args.length = sendCount desc := by
  simp [Instr.WellFormed, Instr.wellFormed]

theorem decode_descriptor_of_count {desc : Descriptor} {args : List Byte} (count : args.length = sendCount desc) :
    decode (.descriptor desc args) = .ok (recognise desc args) := if_pos count

theorem decode_descriptor_of_wrong_count {desc : Descriptor} {args : List Byte} (count : args.length ≠ sendCount desc) :
    decode (.descriptor desc args) = .error .argCountMismatch := if_neg count

/-- An answer to a descriptor's words is what was recognised in them, with the announced count. -/
theorem decode_descriptor_ok {desc : Descriptor} {args : List Byte} {i : Instr}
    (h : decode (.descriptor desc args) = .ok i) : args.length = sendCount desc ∧ i = recognise desc args := by
  by_cases count : args.length = sendCount desc
  · rw [decode_descriptor_of_count count] at h
    injection h with h
    exact ⟨count, h.symm⟩
  · rw [decode_descriptor_of_wrong_count count] at h
    cases h

theorem decode_encode {i : Instr} (hi : i.WellFormed) : decode (encode i) = .ok i.canonical := by
  cases i with
  | command desc args => exact decode_descriptor_of_count (wellFormed_command_iff.mp hi)
  | _ => rfl

theorem canonical_eq_or_listed (i : Instr) :
    i.canonical = i ∨ ∃ desc args, i = .command desc args ∧ desc ∈ listedDescriptors := by
  cases i with
  | command desc args =>
    by_cases h : desc ∈ listedDescriptors
    · exact .inr ⟨desc, args, rfl, h⟩
    · exact .inl (recognise_unlisted h args)
  | _ => exact .inl rfl

theorem encode_of_decode {w : OpWords} {i : Instr} (h : decode w = .ok i) : encode i = w := by
  cases w with
  | descriptor desc args =>
    obtain ⟨count, rfl⟩ := decode_descriptor_ok h
    exact encode_recognise count
  | _ => injection h with h; subst h; rfl

theorem canonical_of_decode {w : OpWords} {i : Instr} (h : decode w = .ok i) : i.canonical = i := by
  cases w with
  | descriptor desc args =>
    obtain ⟨count, rfl⟩ := decode_descriptor_ok h
    exact canonical_recognise count
  | _ => injection h with h; subst h; rfl

/-- Settles O3, from both round trips. -/
theorem decodeOfEncodeIsTheOperation : Obligations.DecodeOfEncodeIsTheOperation := by
  unfold Obligations.DecodeOfEncodeIsTheOperation
  exact ⟨fun _ hi => decode_encode hi, canonical_eq_or_listed,
    fun _ _ h => ⟨encode_of_decode h, decode_wellFormed h, canonical_of_decode h⟩⟩

/-- Settles O4: the decoder's one check is that of the count. -/
theorem onlyAWrongArgumentCountIsRejected : Obligations.OnlyAWrongArgumentCountIsRejected := by
  unfold Obligations.OnlyAWrongArgumentCountIsRejected
  intro desc args
  rw [← sendCount_eq_div]
  refine ⟨⟨fun count => ⟨_, decode_descriptor_of_count count⟩, fun ⟨_, h⟩ => (decode_descriptor_ok h).1⟩,
    decode_descriptor_of_wrong_count, fun h count => ?_⟩
  rw [decode_descriptor_of_count count] at h
  cases h

/-- Settles O1: each word is evaluated. -/
theorem listedDescriptorsDecodeToTheirCommands : Obligations.ListedDescriptorsDecodeToTheirCommands := by
  unfold Obligations.ListedDescriptorsDecodeToTheirCommands
  decide

/-! ## One operation, two spellings (R81, R197) -/

/-- Whatever is encoded as a descriptor's words is the one transaction of that descriptor and those arguments (R84). -/
theorem expansion_of_encode {i : Instr} {desc : Descriptor} {args : List Byte} (h : encode i = .descriptor desc args)
    (c : Config.Params) : expansion c i = [item desc args] := by
  cases i with
  | encoded | query | setMode | modeProgram | synInit => cases h
  | _ => cases h; rfl

theorem canonical_wellFormed {i : Instr} (hi : i.WellFormed) : i.canonical.WellFormed :=
  decode_wellFormed (decode_encode hi)

theorem expansion_canonical {i : Instr} (hi : i.WellFormed) (c : Config.Params) :
    expansion c i.canonical = expansion c i := by
  cases i with
  | command desc args => exact expansion_of_encode (encode_recognise (wellFormed_command_iff.mp hi)) c
  | _ => rfl

/-- Settles O5: the two spellings start the same series of transactions. -/
theorem genericCommandOfAListedDescriptorIsTheMnemonic : Obligations.GenericCommandOfAListedDescriptorIsTheMnemonic := by
  unfold Obligations.GenericCommandOfAListedDescriptorIsTheMnemonic
  intro i s hi
  rw [exec_eq_startOperation (canonical_wellFormed hi), exec_eq_startOperation hi, expansion_canonical hi]

/-! ## The slices of an encoded byte (R78, R79) -/

theorem toNat_slice (b : Byte) (k : Nat) : (slice b k).toNat = b.toNat / 2 ^ (6 - 2 * k) % 4 := by
  rw [slice, BitVec.toNat_and, BitVec.toNat_ushiftRight, Nat.shiftRight_eq_div_pow]
  exact Nat.and_two_pow_sub_one_eq_mod _ 2

/-- Bit by bit: each bit of the byte is in one of the four slices, and comes back to its place. -/
theorem unslice_slice (b : Byte) : unslice (slice b 0) (slice b 1) (slice b 2) (slice b 3) = b := by
  apply BitVec.eq_of_getLsbD_eq
  intro i hi
  have : i = 0 ∨ i = 1 ∨ i = 2 ∨ i = 3 ∨ i = 4 ∨ i = 5 ∨ i = 6 ∨ i = 7 := by omega
  obtain rfl | rfl | rfl | rfl | rfl | rfl | rfl | rfl := this <;> simp [unslice, slice]

/-- Settles O6, with the four slices. -/
theorem encodedByteSlicesRebuildTheByte : Obligations.EncodedByteSlicesRebuildTheByte := by
  unfold Obligations.EncodedByteSlicesRebuildTheByte
  intro c b
  have top : b.toNat / 64 % 4 = b.toNat / 64 := by omega
  refine ⟨slice b 0, slice b 1, slice b 2, slice b 3, rfl, ?_, toNat_slice b 1, toNat_slice b 2, ?_, unslice_slice b⟩
  · exact (toNat_slice b 0).trans top
  · simpa using toNat_slice b 3

/-! ## Parity (R75, R76) -/

/-- The XOR of the first bits is 1 exactly when an odd number of them is. -/
theorem prefixParity_iff_odd (b : Byte) (n : Nat) :
    prefixParity b n = true ↔ (List.range n).countP (fun k => bitOf b k) % 2 = 1 := by
  induction n with
  | zero => simp [prefixParity]
  | succ n ih =>
    rw [prefixParity, List.range_succ, List.countP_append]
    cases hp : prefixParity b n <;> cases hb : bitOf b n <;> simp [hp, hb] at ih ⊢ <;> omega

theorem parityOk_iff_txParity (b : Byte) (p : Level) : parityOk (byteParity b ^^ p) = true ↔ p = txParity b := by
  unfold parityOk txParity
  cases byteParity b <;> cases p <;> decide

/-- Settles O7: the transmitted bit is the complement of the byte's parity. -/
theorem parityBitMakesTheOnesOdd : Obligations.ParityBitMakesTheOnesOdd := by
  unfold Obligations.ParityBitMakesTheOnesOdd
  refine fun b => ⟨?_, parityOk_iff_txParity b⟩
  have odd := prefixParity_iff_odd b 8
  rw [txParity, byteParity, Bool.true_xor, Bool.not_eq_true', ← Bool.not_eq_true, odd]
  omega

end Sys2Proof.Machine
end

section
/-! PROOFS. The walk of a transaction (R83, R157, R163, R165, R173): each `write_byte` and `read_byte_sync` is walked
through whole, and the waits are counted over its positions. -/

namespace Sys2Proof.Machine

/-! ## The successor of a position, by procedure (R157, R163, R165) -/

theorem next_ack (p : ReadPos) : (WritePos.ack p).next = some (p.next.elim .check .ack) := by
  cases h : p.next <;> simp only [WritePos.next, h, Option.elim]

theorem next_ctOpcode (nSend nRecv : Nat) (p : WritePos) :
    (Seq.ctOpcode p).next nSend nRecv = p.next.elim (Seq.afterWrites nSend nRecv 0) .ctOpcode := by
  cases h : p.next <;> simp only [Seq.next, h, Option.elim]

theorem next_ctArg (nSend nRecv i : Nat) (p : WritePos) :
    (Seq.ctArg i p).next nSend nRecv = p.next.elim (Seq.afterWrites nSend nRecv (i + 1)) (.ctArg i) := by
  cases h : p.next <;> simp only [Seq.next, h, Option.elim]

theorem next_ctResp (nSend nRecv j : Nat) (p : ReadPos) :
    (Seq.ctResp j p).next nSend nRecv = p.next.elim (Seq.afterReads nRecv (j + 1)) (.ctResp j) := by
  cases h : p.next <;> simp only [Seq.next, h, Option.elim]

/-! ## A walk through one procedure -/

/-- Whether the positions `rest` follow `p` one by one in a procedure, and `exit` follows the last of them. -/
def follows {P : Type} [DecidableEq P] (next : P → Option P) (exit : Option P) : P → List P → Bool
  | p, [] => next p == exit
  | p, q :: rest => next p == some q && follows next exit q rest

/-- A transaction that takes the procedure's successors, and goes to `after` where the procedure returns, is walked through
a part of the procedure whole, and on from the part's exit. -/
theorem walk_follows {P : Type} [DecidableEq P] {next : P → Option P} {exit : Option P} {position : P → Seq}
    {nSend nRecv : Nat} {after : Seq} (succ : ∀ p, (position p).next nSend nRecv = (next p).elim after position) (n : Nat)
    {p : P} {rest : List P} (h : follows next exit p rest = true) :
    Seq.walk nSend nRecv (rest.length + 1 + n) (position p) =
      (p :: rest).map position ++ Seq.walk nSend nRecv n (exit.elim after position) := by
  induction rest generalizing p with
  | nil =>
    have last : next p = exit := eq_of_beq h
    rw [List.length_nil, Nat.zero_add, Nat.add_comm, Seq.walk, succ, last]
    rfl
  | cons q rest ih =>
    obtain ⟨first, h⟩ := Bool.and_eq_true_iff.mp h
    have first : next p = some q := eq_of_beq first
    rw [List.length_cons, Nat.add_right_comm, Seq.walk, succ, first, Option.elim, ih h]
    rfl

/-- The positions of a write before its acknowledgement (R151-R155). -/
def writeHead : List WritePos := WritePos.path.take 60

theorem writePath_eq : WritePos.path = writeHead ++ ReadPos.path.map .ack ++ [.check] := rfl

theorem follows_readPath : follows ReadPos.next none ReadPos.first ReadPos.path.tail = true := by decide

theorem follows_writeHead : follows WritePos.next (some (.ack ReadPos.first)) .rtsClk writeHead.tail = true := by decide

section
variable {nSend nRecv : Nat} {after : Seq}

/-- A read from its first position (R163). -/
theorem walk_read {position : ReadPos → Seq} (succ : ∀ p, (position p).next nSend nRecv = p.next.elim after position)
    (n : Nat) :
    Seq.walk nSend nRecv (readLength + n) (position ReadPos.first) =
      ReadPos.path.map position ++ Seq.walk nSend nRecv n after :=
  walk_follows succ n follows_readPath

/-- A write from its first position (R157): what comes before the acknowledgement, the acknowledgement's read, the check. -/
theorem walk_write {position : WritePos → Seq} (succ : ∀ p, (position p).next nSend nRecv = p.next.elim after position)
    (n : Nat) :
    Seq.walk nSend nRecv (writeLength + n) (position .rtsClk) =
      WritePos.path.map position ++ Seq.walk nSend nRecv n after := by
  have ackSucc (p : ReadPos) :
      (position (.ack p)).next nSend nRecv = p.next.elim (position .check) (fun p => position (.ack p)) := by
    rw [succ, next_ack]
    cases p.next <;> rfl
  have check : (position .check).next nSend nRecv = after := succ .check
  have length : writeLength + n = writeHead.tail.length + 1 + (readLength + (n + 1)) := by
    have : writeHead.tail.length = 59 := rfl
    rw [this, writeLength]
    omega
  calc Seq.walk nSend nRecv (writeLength + n) (position .rtsClk)
      = writeHead.map position ++ Seq.walk nSend nRecv (readLength + (n + 1)) (position (.ack ReadPos.first)) := by
        rw [length]; exact walk_follows succ _ follows_writeHead
    _ = writeHead.map position ++ (ReadPos.path.map (fun p => position (.ack p)) ++
          position .check :: Seq.walk nSend nRecv n after) := by
        rw [walk_read (position := fun p => position (.ack p)) ackSucc, Seq.walk, check]
    _ = WritePos.path.map position ++ Seq.walk nSend nRecv n after := by
        rw [writePath_eq]
        simp only [List.map_append, List.map_map, List.map_cons, List.map_nil, List.append_assoc, List.cons_append,
          List.nil_append, Function.comp_def]

end

/-! ## The walk through a transaction (R165) -/

/-- The `k` responses from the `j`-th on are read, each whole, and then it is `CT_END`. -/
theorem walk_responses {nSend nRecv j k : Nat} (hj : j + k = nRecv) (n : Nat) :
    Seq.walk nSend nRecv (k * readLength + n) (Seq.afterReads nRecv j) =
      (List.range' j k).flatMap (fun j => ReadPos.path.map (.ctResp j)) ++ Seq.walk nSend nRecv n .ctEnd := by
  induction k generalizing j with
  | zero => simp [Seq.afterReads, ← hj]
  | succ k ih =>
    have length : (k + 1) * readLength + n = readLength + (k * readLength + n) := by
      rw [Nat.succ_mul]; omega
    rw [length, Seq.afterReads, if_pos (by omega), walk_read (next_ctResp nSend nRecv j), ih (by omega),
      List.range'_succ, List.flatMap_cons, List.append_assoc]

/-- The `k` arguments from the `i`-th on are written, each whole, and then the responses are read. -/
theorem walk_arguments {nSend nRecv i k : Nat} (hi : i + k = nSend) (n : Nat) :
    Seq.walk nSend nRecv (k * writeLength + n) (Seq.afterWrites nSend nRecv i) =
      (List.range' i k).flatMap (fun i => WritePos.path.map (.ctArg i)) ++
        Seq.walk nSend nRecv n (Seq.afterReads nRecv 0) := by
  induction k generalizing i with
  | zero => simp [Seq.afterWrites, ← hi]
  | succ k ih =>
    have length : (k + 1) * writeLength + n = writeLength + (k * writeLength + n) := by
      rw [Nat.succ_mul]; omega
    rw [length, Seq.afterWrites, if_pos (by omega), walk_write (next_ctArg nSend nRecv i),
      ih (by omega), List.range'_succ, List.flatMap_cons, List.append_assoc]

/-- The whole transaction from the opcode write on: its positions in the order of R165, and then `IDLE`. -/
theorem walk_transaction (nSend nRecv n : Nat) :
    Seq.walk nSend nRecv ((1 + nSend) * writeLength + nRecv * readLength + 1 + n) (.ctOpcode .rtsClk) =
      Seq.path nSend nRecv ++ Seq.walk nSend nRecv n .idle := by
  have length : (1 + nSend) * writeLength + nRecv * readLength + 1 + n =
      writeLength + (nSend * writeLength + (nRecv * readLength + (n + 1))) := by
    rw [Nat.add_mul]; omega
  rw [length, walk_write (next_ctOpcode nSend nRecv),
    walk_arguments (Nat.zero_add _), walk_responses (Nat.zero_add _), Seq.walk]
  simp only [Seq.path, Seq.next, List.range_eq_range', List.append_assoc, List.cons_append, List.nil_append]

/-! ## The positions of a transaction -/

theorem path_inTransaction {nSend nRecv : Nat} {q : Seq} (h : q ∈ Seq.path nSend nRecv) : q.inTransaction = true := by
  simp only [Seq.path, List.mem_append, List.mem_map, List.mem_flatMap, List.mem_singleton] at h
  obtain ((⟨p, -, rfl⟩ | ⟨i, -, p, -, rfl⟩) | ⟨j, -, p, -, rfl⟩) | rfl := h <;> rfl

theorem readPath_waits : ReadPos.path.countP (fun p => p.enters.isSome) = 22 := by decide

theorem writePath_waits : WritePos.path.countP (fun p => p.enters.isSome) = 44 := by decide

/-- Every write has 44 waits and every read 22 (R83). -/
theorem path_waits (nSend nRecv : Nat) :
    (Seq.path nSend nRecv).countP (fun q => q.enters.isSome) = 44 * (1 + nSend) + 22 * nRecv := by
  have opcode : (WritePos.path.map Seq.ctOpcode).countP (fun q : Seq => q.enters.isSome) = 44 := by
    rw [List.countP_map]; exact writePath_waits
  have argument (i : Nat) : (WritePos.path.map (Seq.ctArg i)).countP (fun q : Seq => q.enters.isSome) = 44 := by
    rw [List.countP_map]; exact writePath_waits
  have response (j : Nat) : (ReadPos.path.map (Seq.ctResp j)).countP (fun q : Seq => q.enters.isSome) = 22 := by
    rw [List.countP_map]; exact readPath_waits
  have atEnd : [Seq.ctEnd].countP (fun q => q.enters.isSome) = 0 := rfl
  simp only [Seq.path, List.countP_append, List.countP_flatMap, Function.comp_def, opcode, argument, response, atEnd,
    List.map_const', List.length_range, List.sum_replicate_nat]
  omega

/-- Settles O45: the walk is the transaction's path, on which the waits are counted. -/
theorem transactionHasAFixedNumberOfWaits : Obligations.TransactionHasAFixedNumberOfWaits := by
  unfold Obligations.TransactionHasAFixedNumberOfWaits
  intro nSend nRecv n
  have walk : Seq.walk nSend nRecv n (.ctOpcode .rtsClk) = Seq.path nSend nRecv :=
    (walk_transaction nSend nRecv 0).trans (List.append_nil _)
  have ending : Seq.walk nSend nRecv (n + 1) (.ctOpcode .rtsClk) = Seq.path nSend nRecv ++ [.idle] :=
    walk_transaction nSend nRecv 1
  rw [walk, ending]
  exact ⟨path_waits nSend nRecv, fun q => path_inTransaction, List.getLast?_concat⟩

end Sys2Proof.Machine
end

section
/-! PROOFS. The link (R100-R108): the levels of a line and what its primitives write, and the engine's step at every clock
wait and every hold of a transaction. -/

namespace Sys2Proof.Machine

/-! ## Levels and line primitives (R100-R102, R108) -/

@[simp] theorem setPad_pad_same (s : State) (l : Line) (m : Pad) : (s.setPad l m).pad l = m := by cases l <;> rfl

@[simp] theorem setPad_devLow (s : State) (l k : Line) (m : Pad) : (s.setPad l m).devLow k = s.devLow k := by
  cases l <;> cases k <;> rfl

/-- A floating line that nobody pulls is the draw (R108). -/
theorem levelWith_draw {d : Level} {l : Line} {s : State} (hp : s.pad l = .inFloat) (hv : s.devLow l = false)
    (hu : s.cfg.extPullup = false) : levelWith d l s = d := by
  simp [levelWith, hp, hv, hu]

/-- A line whose level is no draw is `HIGH` exactly if neither end pulls it low (R108). -/
theorem levelAt_eq_high_iff {l : Line} {s : State} (h : s.defined l) (n : Nat) :
    levelAt n l s = HIGH ↔ s.pad l ≠ .driveLow ∧ s.devLow l = false := by
  by_cases low : s.pad l = .driveLow ∨ s.devLow l = true
  · rw [levelAt, levelWith_low low]
    exact iff_of_false Bool.false_ne_true fun ⟨hp, hv⟩ => low.elim hp (ne_true_of_eq_false hv)
  · obtain ⟨hp, hv⟩ := not_or.mp low
    have hv : s.devLow l = false := by simpa using hv
    have pulled : s.pad l = .inPullup ∨ s.cfg.extPullup = true := by
      obtain driven | pulledLow | external := h
      · cases pad : s.pad l with
        | inPullup => exact .inl rfl
        | driveLow => exact absurd pad hp
        | inFloat => exact absurd pad driven
      · rw [hv] at pulledLow
        cases pulledLow
      · exact .inr external
    rw [levelAt, levelWith_high hp hv pulled]
    exact iff_of_true rfl ⟨hp, hv⟩

theorem levelAt_driveLow (n : Nat) (l : Line) (s : State) : levelAt n l (driveLow l s) = LOW :=
  levelWith_low (.inl (setPad_pad_same s l .driveLow))

theorem levelAt_releaseHigh (n : Nat) (l : Line) (s : State) : levelAt n l (releaseHigh l s) = !s.devLow l := by
  cases hv : s.devLow l with
  | false => exact levelWith_high (by simp [releaseHigh]) (by simp [releaseHigh, hv]) (.inl (by simp [releaseHigh]))
  | true => exact levelWith_low (.inr (by simp [releaseHigh, hv]))

theorem sampleLevel_draw {l : Line} {s : State} (hv : s.devLow l = false) (hu : s.cfg.extPullup = false) :
    sampleLevel l s = Config.lineDraw l s.draws :=
  levelWith_draw (setPad_pad_same s l .inFloat) (by simpa using hv) (by simpa using hu)

/-- Settles O8, case by case of R108. -/
theorem levelIsTheWiredAnd : Obligations.LevelIsTheWiredAnd := by
  unfold Obligations.LevelIsTheWiredAnd
  exact fun n l s => ⟨levelWith_low, levelWith_high, levelWith_draw⟩

/-- Settles O9, primitive by primitive. -/
theorem linkPrimitivesWriteTheirPadAlone : Obligations.LinkPrimitivesWriteTheirPadAlone := by
  unfold Obligations.LinkPrimitivesWriteTheirPadAlone
  exact fun s n => ⟨rfl, rfl, rfl, rfl, rfl, rfl, fun l => levelAt_driveLow n l s, fun l => levelAt_releaseHigh n l s,
    fun l => sample_devLow, fun l => sample_released, fun l => sampleLevel_draw⟩

/-! ## The polls of a clock wait (R105) -/

theorem pollClock_timeout {t : Level} {s : State} (hv : levelAt s.draws .clk s ≠ t)
    (late : s.cfg.tTimeout ≤ s.now - s.waitT0) : pollClock t s = .timeout := by
  rw [pollClock, if_neg hv, if_pos late]

theorem pollClock_stay {t : Level} {s : State} (hv : levelAt s.draws .clk s ≠ t)
    (early : s.now - s.waitT0 < s.cfg.tTimeout) : pollClock t s = .stay := by
  rw [pollClock, if_neg hv, if_neg (Nat.not_le.mpr early)]

/-! ## The engine's step at a primitive (R37, R165) -/

theorem engineStep_ctOpcode {s : State} {p : WritePos} (hq : s.seq = .ctOpcode p) :
    engineStep s = .next (advance (writeDone p s) (writeEffect (opcodeByte s.txn.desc) p s)) := by
  simp only [engineStep, hq]

/-- The argument that a transaction is about to send is there (R33, R167). -/
theorem argument_written {s : State} {i : Nat} {p : WritePos} (mode : s.ModeInv) (txn : s.TxnInv)
    (hq : s.seq = .ctArg i p) : ∃ b, s.txn.args[i]? = some b := by
  have busy : s.inTxn = true := by rw [mode.txnSeq, hq]; rfl
  have count : s.seq.counted s.txn := txn.position
  rw [hq] at count
  exact ⟨_, List.getElem?_eq_getElem (txn.argCount busy ▸ count.1)⟩

theorem engineStep_ctArg {s : State} {i : Nat} {p : WritePos} (mode : s.ModeInv) (txn : s.TxnInv)
    (hq : s.seq = .ctArg i p) : ∃ b, engineStep s = .next (advance (writeDone p s) (writeEffect b p s)) := by
  obtain ⟨b, hb⟩ := argument_written mode txn hq
  exact ⟨b, by simp only [engineStep, hq, hb, readElement_some]⟩

theorem engineStep_ctResp {s : State} {j : Nat} {p : ReadPos} (hq : s.seq = .ctResp j p) :
    engineStep s = .next (advance (readDone p s) (takeResponse p (readEffect p s))) := by
  simp only [engineStep, hq]

/-! ## What the primitive of a wait is (R105, R158) -/

/-- The read in progress at a position of `write_byte`: the acknowledgement's (R156). -/
def WritePos.read : WritePos → Option ReadPos
  | .ack p => some p
  | _ => none

/-- A read's registers start with the first wait of it (R158, log 15). -/
def startRead (r : Option ReadPos) (s : State) : State := if r = some ReadPos.first then readStart s else s

theorem read_enters {p : ReadPos} {t : Level} (h : p.enters = some t) (s : State) :
    readDone p s = true ∧ readEffect p s = waitEnter t (startRead (some p) s) := by
  cases p with
  | waitLow k w =>
    cases w with
    | enter =>
      cases h
      have first : k.val = 0 ↔ some (ReadPos.waitLow k .enter) = some ReadPos.first :=
        ⟨fun h => by rw [Fin.ext (b := 0) h]; rfl, fun h => by cases h; rfl⟩
      exact ⟨rfl, congrArg (waitEnter LOW) (ite_congr (propext first) (fun _ => rfl) fun _ => rfl)⟩
    | poll => cases h
  | waitHigh k w =>
    cases w <;> cases h
    exact ⟨rfl, rfl⟩
  | _ => cases h

theorem read_awaits {p : ReadPos} {t : Level} (h : p.awaits = some t) (s : State) :
    readDone p s = (pollClock t s).done ∧ readEffect p s = waitPoll t s := by
  cases p with
  | waitLow k w | waitHigh k w =>
    cases w <;> cases h
    exact ⟨rfl, rfl⟩
  | _ => cases h

/-- No wait is the step in which a read returns (R163). -/
theorem ne_pulseRel_of_wait {p : ReadPos} {t : Level} (h : p.enters = some t ∨ p.awaits = some t) : p ≠ .pulseRel := by
  rintro rfl
  rcases h with h | h <;> cases h

theorem takeAck_of_ne {p : ReadPos} (h : p ≠ .pulseRel) (s : State) : takeAck p s = s := if_neg h

theorem takeResponse_of_ne {p : ReadPos} (h : p ≠ .pulseRel) (s : State) : takeResponse p s = s := if_neg h

theorem write_enters {p : WritePos} {t : Level} (h : p.enters = some t) (b : Byte) (s : State) :
    writeDone p s = true ∧ writeEffect b p s = waitEnter t (startRead p.read s) := by
  cases p with
  | bitWaitLow i w | bitWaitHigh i w | lcWaitLow w | lcWaitHigh w =>
    cases w <;> cases h
    exact ⟨rfl, rfl⟩
  | ack p =>
    have h : p.enters = some t := h
    obtain ⟨done, effect⟩ := read_enters h s
    exact ⟨done, (takeAck_of_ne (ne_pulseRel_of_wait (.inl h)) _).trans effect⟩
  | _ => cases h

theorem write_awaits {p : WritePos} {t : Level} (h : p.awaits = some t) (b : Byte) (s : State) :
    writeDone p s = (pollClock t s).done ∧ writeEffect b p s = waitPoll t s := by
  cases p with
  | bitWaitLow i w | bitWaitHigh i w | lcWaitLow w | lcWaitHigh w =>
    cases w <;> cases h
    exact ⟨rfl, rfl⟩
  | ack p =>
    have h : p.awaits = some t := h
    obtain ⟨done, effect⟩ := read_awaits h s
    exact ⟨done, (takeAck_of_ne (ne_pulseRel_of_wait (.inr h)) _).trans effect⟩
  | _ => cases h

/-! ## The engine's step at a wait, in any write or read (R105, R244) -/

theorem reading_ctOpcode {s : State} {p : WritePos} (hq : s.seq = .ctOpcode p) : s.reading = p.read := by
  rw [State.reading, hq]
  cases p <;> rfl

theorem reading_ctArg {s : State} {i : Nat} {p : WritePos} (hq : s.seq = .ctArg i p) : s.reading = p.read := by
  rw [State.reading, hq]
  cases p <;> rfl

theorem reading_ctResp {s : State} {j : Nat} {p : ReadPos} (hq : s.seq = .ctResp j p) : s.reading = some p := by
  rw [State.reading, hq]

section
variable {s : State} {t : Level} (mode : s.ModeInv) (txn : s.TxnInv)
include mode txn

theorem engineStep_enters (h : s.seq.enters = some t) :
    engineStep s = .next (advance true (waitEnter t (startRead s.reading s))) := by
  cases hq : s.seq with
  | ctOpcode p =>
    rw [hq] at h
    obtain ⟨done, effect⟩ := write_enters h (opcodeByte s.txn.desc) s
    rw [engineStep_ctOpcode hq, reading_ctOpcode hq, done, effect]
  | ctArg i p =>
    rw [hq] at h
    obtain ⟨b, step⟩ := engineStep_ctArg mode txn hq
    obtain ⟨done, effect⟩ := write_enters h b s
    rw [step, reading_ctArg hq, done, effect]
  | ctResp j p =>
    rw [hq] at h
    obtain ⟨done, effect⟩ := read_enters h s
    rw [engineStep_ctResp hq, reading_ctResp hq, takeResponse_of_ne (ne_pulseRel_of_wait (.inl h)), done, effect]
  | _ => rw [hq] at h; cases h

theorem engineStep_awaits (h : s.seq.awaits = some t) :
    engineStep s = .next (advance (pollClock t s).done (waitPoll t s)) := by
  cases hq : s.seq with
  | ctOpcode p =>
    rw [hq] at h
    obtain ⟨done, effect⟩ := write_awaits h (opcodeByte s.txn.desc) s
    rw [engineStep_ctOpcode hq, done, effect]
  | ctArg i p =>
    rw [hq] at h
    obtain ⟨b, step⟩ := engineStep_ctArg mode txn hq
    obtain ⟨done, effect⟩ := write_awaits h b s
    rw [step, done, effect]
  | ctResp j p =>
    rw [hq] at h
    obtain ⟨done, effect⟩ := read_awaits h s
    rw [engineStep_ctResp hq, takeResponse_of_ne (ne_pulseRel_of_wait (.inr h)), done, effect]
  | _ => rw [hq] at h; cases h

end

/-- Settles O10, by the engine's step at a `W_ENTER`, and at a `W_POLL` for each answer of the poll. -/
theorem clockWaitPollsTheLevelThenTheDeadline : Obligations.ClockWaitPollsTheLevelThenTheDeadline := by
  unfold Obligations.ClockWaitPollsTheLevelThenTheDeadline
  refine ⟨rfl, fun s t mode txn => ⟨fun enters => ?_, fun awaits seen => ?_, fun awaits unseen late => ?_,
    fun awaits unseen early => ?_⟩⟩
  · rw [engineStep_enters mode txn enters, startRead, ReadPos.first]
    split <;> cases t <;> rfl
  · rw [engineStep_awaits mode txn awaits, waitPoll, pollClock_seen seen]
    rfl
  · rw [engineStep_awaits mode txn awaits, waitPoll, pollClock_timeout unseen late]
    rfl
  · rw [engineStep_awaits mode txn awaits, waitPoll, pollClock_stay unseen early]
    rfl

/-! ## The engine's step at a hold (R107, R151, R162) -/

section
variable {s : State} (mode : s.ModeInv) (txn : s.TxnInv)
include mode txn

theorem engineStep_entersHold (h : s.seq.entersHold = true) : engineStep s = .next (advance true (delayEnter s)) := by
  unfold Seq.entersHold at h
  split at h
  case h_1 hq | h_3 hq => exact engineStep_ctOpcode hq
  case h_2 hq | h_4 hq =>
    obtain ⟨b, step⟩ := engineStep_ctArg mode txn hq
    exact step
  case h_5 hq => exact engineStep_ctResp hq
  case h_6 => cases h

theorem engineStep_holds {d : Time} (h : s.seq.holds s.cfg = some d) :
    engineStep s = .next (advance (pollDelay d s).done s) := by
  unfold Seq.holds at h
  split at h <;> cases h
  case h_1 hq | h_3 hq => exact engineStep_ctOpcode hq
  case h_2 hq | h_4 hq =>
    obtain ⟨b, step⟩ := engineStep_ctArg mode txn hq
    exact step
  case h_5 hq => exact engineStep_ctResp hq

end

/-- Settles O11, by the engine's step at a `D_ENTER` and at a `D_POLL`. -/
theorem holdLastsAtLeastItsBound : Obligations.HoldLastsAtLeastItsBound := by
  unfold Obligations.HoldLastsAtLeastItsBound
  refine fun s mode txn => ⟨engineStep_entersHold mode txn, fun d holds => ⟨fun passed => ?_, fun early => ?_⟩⟩
  · rw [engineStep_holds mode txn holds, pollDelay_done, decide_eq_true passed]
    rfl
  · rw [engineStep_holds mode txn holds, pollDelay_done, decide_eq_false (Nat.not_le.mpr early)]
    rfl

end Sys2Proof.Machine
end

section
/-! PROOFS. The edge detector (R109, R120, R249): what each agent's step makes of a pending edge is said once, and the
detector's look at the step comes after it. -/

namespace Sys2Proof.Machine

/-! ## What an agent makes of a pending edge -/

/-- What a step on `e` makes of the pending edge of `s`, before the detector looks at it: it is kept, or the handler takes
it, or a transaction's start drops it unless edges are kept while masked, or `begin` drops it (R121, R166, R280). -/
inductive EdgeUse (e : Event) (s t : State) : Bool → Prop
  | kept : EdgeUse e s t s.edgePending
  | taken (byHandler : ∃ c, e = .handler c) (enabled : s.handlerEnabled = true) : EdgeUse e s t false
  | masked (begins : beginsTxn e s) (begun : t.TxnBegun) :
      EdgeUse e s t (s.edgePending && s.cfg.edgeLatchWhileMasked)
  | setUp (byBegin : ∃ c d k, e = .caller (.begin c d k)) : EdgeUse e s t false

theorem EdgeUse.of_eq {e : Event} {s t : State} {left : Bool} (h : left = s.edgePending) : EdgeUse e s t left :=
  h ▸ .kept

theorem engineStep_edgePending {s t : State} (h : engineStep s = .next t) : EdgeUse .engine s t t.edgePending := by
  obtain ⟨-, -, rfl⟩ | ⟨-, -, rfl⟩ | ⟨-, -, rfl⟩ | ⟨it, rest, hs, -, rfl⟩ | ⟨p, -, rfl⟩ | ⟨i, p, b, -, -, rfl⟩ |
    ⟨j, p, -, rfl⟩ | ⟨hs, hc⟩ := engineStep_cases h
  · exact .kept
  · exact .kept
  · exact .kept
  · exact .masked (.inr ⟨rfl, hs⟩) (ctBegin_txnBegun it _)
  · exact .of_eq (by simp)
  · exact .of_eq (by simp)
  · exact .of_eq (by simp)
  · obtain ⟨syn, -, rfl⟩ := ctEnd_cases hc
    exact .of_eq (by simp)

theorem handlerStep_edgePending {c : Option Request} {s t : State} (h : handlerStep c s = .next t) :
    EdgeUse (.handler c) s t t.edgePending := by
  obtain ⟨-, rfl⟩ | ⟨he, -, rfl⟩ | ⟨he, -, u, hu, rfl⟩ := handlerStep_cases h
  · exact .kept
  · exact .taken ⟨c, rfl⟩ he
  · have dropped : (leaveHandler u).edgePending = false := by
      obtain ⟨-, rfl⟩ | ⟨-, -, rfl⟩ | ⟨-, rfl⟩ | ⟨-, -, rfl⟩ := consumeBit_cases hu <;> simp
    exact dropped ▸ .taken ⟨c, rfl⟩ he

theorem requestStep_edgePending {r : Request} {s t : State} (h : requestStep r s = .next t) :
    EdgeUse (.caller r) s t t.edgePending := by
  obtain ⟨i, it, rest, -, ⟨-, w, rfl, -⟩, -, rfl⟩ | ⟨c, d, k, ⟨-, rfl⟩, -, -, rfl⟩ := requestStep_cases h
  · simpa using EdgeUse.masked (.inl ⟨w, rfl⟩) (ctBegin_txnBegun it _)
  · exact .setUp ⟨c, d, k, rfl⟩

theorem applyEvent_edgePending {e : Event} {s t : State} (h : applyEvent e s = .next t) :
    EdgeUse e s t t.edgePending := by
  cases e with
  | device l low => injection h with h; subst h; exact .of_eq (by simp)
  | time d => injection h with h; subst h; exact .kept
  | engine => exact engineStep_edgePending h
  | handler c => exact handlerStep_edgePending h
  | caller r => exact requestStep_edgePending h
  | readSnapshot => rw [readSnapshot_next h]; exact .kept

/-- After a step an edge is pending if its agent left one, or if `CLK` fell over it while edges are recorded (R109, R120). -/
theorem step_edgePending {s t : State} (h : step s = .next t) :
    ∃ left n, EdgeUse (nextEvent s).1 s t left ∧
      t.edgePending = (left || (levelAt n .clk s && !levelAt (n + 1) .clk t && t.latches)) := by
  obtain ⟨inputs, choices, u, hu, rfl⟩ := step_event h
  refine ⟨u.edgePending, u.draws, ?_, rfl⟩
  have used := applyEvent_edgePending hu
  generalize u.edgePending = left at used
  cases used with
  | kept => exact .kept
  | taken byHandler enabled => exact .taken byHandler enabled
  | masked begins begun => exact .masked begins ⟨begun.gate, begun.frame, begun.inTxn, begun.seq⟩
  | setUp byBegin => exact .setUp byBegin

/-! ## The latch -/

/-- No agent raises an edge itself. -/
theorem EdgeUse.of_none {e : Event} {s t : State} {left : Bool} (used : EdgeUse e s t left)
    (noEdge : s.edgePending = false) : left = false := by
  cases used <;> simp [noEdge]

theorem latches_iff {s : State} :
    s.latches = true ↔ s.configured = true ∧ (s.gate = true ∨ s.cfg.edgeLatchWhileMasked = true) := by
  simp [State.latches]

/-- With no edge pending, one is pending after the step exactly if `CLK` falls over it while edges are recorded. -/
theorem step_latches {s t : State} (h : step s = .next t) (noEdge : s.edgePending = false) :
    ∃ n, t.edgePending = (levelAt n .clk s && !levelAt (n + 1) .clk t && t.latches) := by
  obtain ⟨left, n, used, edge⟩ := step_edgePending h
  exact ⟨n, by rw [edge, used.of_none noEdge, Bool.false_or]⟩

/-- Settles O12: the latch by the levels of `CLK` before and after the step, the clearing events by what each agent makes of a
pending edge. -/
theorem fallingEdgeIsLatched : Obligations.FallingEdgeIsLatched := by
  unfold Obligations.FallingEdgeIsLatched
  refine fun s t h => ⟨fun noEdge before after => ?_, fun noEdge masked closed => ?_, fun pending cleared => ?_⟩
  · obtain ⟨n, edge⟩ := step_latches h noEdge
    have high := levelAt_eq_high_iff before n
    have low : levelAt (n + 1) .clk t = false ↔ t.clkPad = .driveLow ∨ t.clkDevLow = true := by
      rw [← Bool.not_eq_true, levelAt_eq_high_iff after, Classical.not_and_iff_not_or_not,
        Classical.not_not, Bool.not_eq_false]
      rfl
    rw [edge, Bool.and_eq_true, Bool.and_eq_true, Bool.not_eq_true', high, low, latches_iff, and_assoc]
    rfl
  · obtain ⟨n, edge⟩ := step_latches h noEdge
    have lost : t.latches = false := by simp [State.latches, closed, step_cfg h, masked]
    rw [edge, lost, Bool.and_false]
  · obtain ⟨left, n, used, edge⟩ := step_edgePending h
    have dropped : left = false := (Bool.or_eq_false_iff.mp (edge ▸ cleared)).1
    cases used with
    | kept => rw [pending] at dropped; cases dropped
    | taken byHandler enabled =>
      obtain ⟨-, gate, handler⟩ := handlerEnabled_iff.mp enabled
      exact .inl ⟨byHandler, gate, handler⟩
    | masked begins begun =>
      rw [pending, Bool.true_and] at dropped
      exact .inr (.inl ⟨dropped, begun.inTxn, begun.seq, begins⟩)
    | setUp byBegin => exact .inr (.inr byBegin)

end Sys2Proof.Machine
end

section
/-! PROOFS. The step of the receive handler (R121-R134): what it does at each frame position is said once, and the
statements about single positions are read off. -/

namespace Sys2Proof.Machine

/-! ## The step by what is sampled (R121-R123) -/

/-- The state in which the handler consumes a bit: the interrupt taken and both lines sampled (R121-R123). -/
def State.atBit (s : State) : State := sampled .data (sampled .clk (enterHandler s))

theorem handlerStep_disabled {s : State} (h : s.handlerEnabled = false) (c : Option Request) : handlerStep c s = .next s := by
  rw [handlerStep, h]; rfl

section
variable {s : State} (enabled : s.handlerEnabled = true)
include enabled

theorem handlerStep_spurious (high : sampleLevel .clk (enterHandler s) = HIGH) (c : Option Request) :
    handlerStep c s = .next (leaveHandler (sampled .clk (enterHandler s))) := by
  rw [handlerStep, if_pos enabled, receiveStep, if_pos high]

variable (low : sampleLevel .clk (enterHandler s) = LOW)
include low

theorem handlerStep_next {c : Option Request} {u : State}
    (h : consumeBit c (sampleLevel .data (sampled .clk (enterHandler s))) s.atBit = .next u) :
    handlerStep c s = .next (leaveHandler u) := by
  rw [handlerStep, if_pos enabled, receiveStep, low, if_neg Bool.false_ne_true, ← State.atBit, h]

theorem handlerStep_fault {c : Option Request} {f : Fault}
    (h : consumeBit c (sampleLevel .data (sampled .clk (enterHandler s))) s.atBit = .fault f) :
    handlerStep c s = .fault f := by
  rw [handlerStep, if_pos enabled, receiveStep, low, if_neg Bool.false_ne_true, ← State.atBit, h]

end

@[simp] theorem atBit_frame (s : State) : s.atBit.frame = s.frame := by simp [State.atBit]
@[simp] theorem atBit_rxStream (s : State) : s.atBit.rxStream = s.rxStream := by simp [State.atBit]
@[simp] theorem atBit_diagLog (s : State) : s.atBit.diagLog = s.diagLog := by simp [State.atBit]

/-- What is left of a handler step that wrote the frame, the stream and the log, beside these (R121, R122, R253; log 8). -/
theorem leaveHandler_atBit {s : State} (outside : s.inHandler = false) (f : Frame) (rx : List Byte)
    (log : List DiagEvent) :
    leaveHandler { s.atBit with frame := f, rxStream := rx, diagLog := log } =
      { s with edgePending := false, clkPad := .inFloat, dataPad := .inFloat, draws := s.draws + 2,
               frame := f, rxStream := rx, diagLog := log } := by
  simp only [outside]
  rfl

/-! ## The consumed bit, by frame position (R124-R127, R134) -/

theorem consumeBit_start {s : State} (h : s.frame.bitIndex = 0#4) (c : Option Request) (d : Level) :
    consumeBit c d s = .next { s with
      frame := { s.frame with bitIndex := 1#4 }
      diagLog := s.diagLog ++ if d = LOW then [] else [{ error := .startBitError, context := .async, info := .bit d }] } := by
  rw [consumeBit, if_pos (by rw [h]; rfl)]
  cases d <;> simp [takeStart, startOk, report]

theorem consumeBit_payload {s : State} (h1 : 1 ≤ s.frame.bitIndex.toNat) (h8 : s.frame.bitIndex.toNat ≤ 8)
    (c : Option Request) (d : Level) : consumeBit c d s = .next (takePayload d s) := by
  rw [consumeBit, if_neg (Nat.ne_of_gt h1), if_pos h8]

theorem consumeBit_parity {s : State} (h : s.frame.bitIndex = 9#4) (c : Option Request) (d : Level) :
    consumeBit c d s = .next { s with
      frame := { s.frame with bitIndex := 10#4, runningParity := s.frame.runningParity ^^ d }
      diagLog := s.diagLog ++
        if (s.frame.runningParity ^^ d) = true then []
        else [{ error := .parityError, context := .async, info := .byte s.frame.accumulatedByte }] } := by
  rw [consumeBit, h]
  cases hp : s.frame.runningParity ^^ d <;> simp [takeParity, parityOk, report, hp]

theorem consumeBit_stop {s : State} (h : s.frame.bitIndex = 10#4) (d : Level) :
    consumeBit none d s = .next { s with
      frame := Frame.idle
      rxStream := s.rxStream ++ [s.frame.accumulatedByte]
      diagLog := s.diagLog ++
        if d = HIGH then [] else [{ error := .stopBitError, context := .async, info := .byte s.frame.accumulatedByte }] } := by
  rw [consumeBit, h]
  cases d <;> simp [takeStop, deliver, stopOk, report]

theorem consumeBit_stop_request {s : State} (h : s.frame.bitIndex = 10#4) (r : Request) (d : Level) :
    consumeBit (some r) d s = .fault .reentrantTransaction := by
  rw [consumeBit, h]; rfl

theorem consumeBit_outOfRange {s : State} (h : 11 ≤ s.frame.bitIndex.toNat) (c : Option Request) (d : Level) :
    consumeBit c d s = .fault .bitIndexOutOfRange := by
  rw [consumeBit, if_neg (by omega), if_neg (by omega), if_neg (by omega), if_neg (by omega)]

/-! ## The statements about one step -/

/-- Settles O13, by the spurious-trigger filter. -/
theorem spuriousTriggerChangesOnlyTheClockPad : Obligations.SpuriousTriggerChangesOnlyTheClockPad := by
  unfold Obligations.SpuriousTriggerChangesOnlyTheClockPad
  intro s c enabled high
  have outside := (handlerEnabled_iff.mp enabled).2.2
  rw [handlerStep_spurious enabled high]
  simp only [outside]
  rfl

/-- Settles O14, by what a consumed start bit does. -/
theorem startBitIsCheckedAndTheFrameGoesOn : Obligations.StartBitIsCheckedAndTheFrameGoesOn := by
  unfold Obligations.StartBitIsCheckedAndTheFrameGoesOn
  rintro s c d enabled low rfl start
  obtain ⟨-, -, outside⟩ := handlerEnabled_iff.mp enabled
  rw [handlerStep_next enabled low (consumeBit_start (by simpa using start) c _)]
  exact congrArg _ (leaveHandler_atBit outside ..)

/-- Settles O16, by what a consumed parity bit does. -/
theorem parityBitIsCheckedAndTheFrameGoesOn : Obligations.ParityBitIsCheckedAndTheFrameGoesOn := by
  unfold Obligations.ParityBitIsCheckedAndTheFrameGoesOn
  rintro s c d enabled low rfl parity
  obtain ⟨-, -, outside⟩ := handlerEnabled_iff.mp enabled
  rw [handlerStep_next enabled low (consumeBit_parity (by simpa using parity) c _)]
  exact congrArg _ (leaveHandler_atBit outside ..)

/-- Settles O17, by what a consumed stop bit does. -/
theorem stopBitDeliversTheByteAnyway : Obligations.StopBitDeliversTheByteAnyway := by
  unfold Obligations.StopBitDeliversTheByteAnyway
  rintro s d enabled low rfl stop
  obtain ⟨-, -, outside⟩ := handlerEnabled_iff.mp enabled
  rw [handlerStep_next enabled low (consumeBit_stop (by simpa using stop) _)]
  exact congrArg _ (leaveHandler_atBit outside ..)

/-- Settles O18: no position past the stop bit consumes a bit. -/
theorem outOfRangeBitIndexFaults : Obligations.OutOfRangeBitIndexFaults := by
  unfold Obligations.OutOfRangeBitIndexFaults
  intro s c enabled low beyond
  exact handlerStep_fault enabled low (consumeBit_outOfRange (by simpa using beyond) c _)

/-- Putting a bit on a byte changes that bit position alone (R125). -/
theorem bitOf_putBit (a : Byte) (n : Nat) (d : Level) {k : Nat} (hk : k < 8) :
    bitOf (putBit a n d) k = if k = n then (bitOf a k || d) else bitOf a k := by
  simp only [bitOf, putBit, BitVec.getLsbD_or, BitVec.getLsbD_shiftLeft, BitVec.getLsbD_setWidth, BitVec.getLsbD_ofBool]
  split
  · next same => simp [same, same ▸ hk]
  · next other =>
    obtain below | above : k < n ∨ k - n ≠ 0 := by omega
    · simp [below]
    · simp [above]

/-- Settles O15, by what a consumed payload bit does. -/
theorem payloadBitIsAccumulatedLsbFirst : Obligations.PayloadBitIsAccumulatedLsbFirst := by
  unfold Obligations.PayloadBitIsAccumulatedLsbFirst
  rintro s c d enabled low rfl h1 h8
  obtain ⟨-, -, outside⟩ := handlerEnabled_iff.mp enabled
  refine ⟨_, ?_, fun k hk => bitOf_putBit _ _ _ hk⟩
  rw [handlerStep_next enabled low (consumeBit_payload (by simpa using h1) (by simpa using h8) c _)]
  exact congrArg _ (leaveHandler_atBit outside ..)

/-! ## Requests from inside the handler (R131, R248) -/

theorem admission_inHandler {s : State} (h : s.inHandler = true) (k : State → Result) :
    admission s k = .fault .reentrantTransaction := if_pos h

theorem exec_inHandler {s : State} (h : s.inHandler = true) (i : Instr) : exec i s = .fault .reentrantTransaction := by
  cases i with
  | command desc args =>
    simp only [exec, execCommand, startOperation, admission_inHandler h, ite_self]
  | _ => rw [exec_eq_startOperation rfl, startOperation, admission_inHandler h]

theorem requestStep_inHandler {s : State} (h : s.inHandler = true) (r : Request) :
    requestStep r s = .fault .reentrantTransaction := by
  cases r with
  | op w =>
    simp only [requestStep]
    split
    · exact exec_inHandler h _
    · next e _ => cases e; rw [rejectWords, admission_inHandler h]
  | begin c d k => exact if_pos h
  | writeByte b => exact if_pos h
  | readByteSync => exact if_pos h
  | link p => exact if_pos h

/-- Settles O19: the first check of every request, and the delivery at the stop position. -/
theorem operationFromTheCallbackFaults : Obligations.OperationFromTheCallbackFaults := by
  unfold Obligations.OperationFromTheCallbackFaults
  refine ⟨fun s r h => requestStep_inHandler h r, fun s i h => exec_inHandler h i, fun s r enabled low stop => ?_⟩
  exact handlerStep_fault enabled low (consumeBit_stop_request (by simpa using stop) r _)

end Sys2Proof.Machine
end

section
/-! PROOFS. The receive frame's invariants (R132) and the byte stream (R39, R136) over every step of the machine. -/

namespace Sys2Proof.Machine

/-! ## The invariants of the frame (R132) -/

/-- The invariants of the frame speak of the frame registers alone. -/
theorem State.FrameInv.of_frame {s t : State} (inv : s.FrameInv) (h : t.frame = s.frame) : t.FrameInv := by
  obtain ⟨index, empty, beyond, parity⟩ := inv
  rw [← h] at index empty beyond parity
  exact ⟨index, empty, beyond, parity⟩

theorem frameInv_of_idle {t : State} (h : t.frame = Frame.idle) : t.FrameInv := by
  constructor <;> rw [h] <;> decide

/-- A consumed bit keeps the frame's invariants, position by position (R124-R127, R132). -/
theorem consumeBit_frameInv {c : Option Request} {d : Level} {s t : State} (h : consumeBit c d s = .next t)
    (inv : s.FrameInv) : t.FrameInv := by
  obtain ⟨at0, rfl⟩ | ⟨h1, h8, rfl⟩ | ⟨at9, rfl⟩ | ⟨-, -, rfl⟩ := consumeBit_cases h
  · refine ⟨?_, ?_, ?_, ?_⟩ <;> rw [takeStart_frame]
    · simp
    · exact fun _ => inv.emptyAtStart at0
    · simp [inv.emptyAtStart at0]
    · exact fun _ => inv.parity (by omega)
  · obtain ⟨beyond, parity⟩ := putBit_shift d (by omega) (inv.zeroBeyond h1)
    have next : (s.frame.bitIndex + 1#4).toNat = s.frame.bitIndex.toNat + 1 := by
      rw [BitVec.toNat_add]
      exact Nat.mod_eq_of_lt (by simp; omega)
    refine ⟨?_, ?_, ?_, ?_⟩ <;> rw [takePayload_frame] <;> simp only [next]
    · omega
    · omega
    · intro _
      rwa [Nat.sub_add_cancel h1] at beyond
    · intro _
      rw [parity, inv.parity (by omega)]
  · refine ⟨?_, ?_, ?_, ?_⟩ <;> rw [takeParity_frame]
    · simp
    · simp
    · exact fun _ => BitVec.ushiftRight_eq_zero (by simp)
    · simp
  · exact frameInv_of_idle rfl

theorem handlerStep_frameInv {c : Option Request} {s t : State} (h : handlerStep c s = .next t) (inv : s.FrameInv) :
    t.FrameInv := by
  obtain ⟨-, rfl⟩ | ⟨-, -, rfl⟩ | ⟨-, -, u, hu, rfl⟩ := handlerStep_cases h
  · exact inv
  · exact inv.of_frame (by simp)
  · exact (consumeBit_frameInv hu (inv.of_frame (by simp))).of_frame (by simp)

/-- Every agent's step leaves the frame alone, makes it idle, or is the handler's. -/
theorem applyEvent_frameInv {e : Event} {s t : State} (h : applyEvent e s = .next t) (inv : s.FrameInv) : t.FrameInv := by
  obtain ⟨-, same⟩ | ⟨⟨c, rfl⟩, -⟩ | ⟨-, begun⟩ | ⟨-, -, -, same⟩ | ⟨-, -, idle⟩ := applyEvent_receiveSide h
  · exact inv.of_frame same
  · exact handlerStep_frameInv h inv
  · exact frameInv_of_idle begun.frame
  · exact inv.of_frame same
  · exact frameInv_of_idle idle

/-- Settles O24, by each agent's step. -/
theorem everyStepKeepsTheFrameInvariant : Obligations.EveryStepKeepsTheFrameInvariant := by
  unfold Obligations.EveryStepKeepsTheFrameInvariant
  intro s t inv h
  obtain ⟨inputs, choices, u, hu, rfl⟩ := step_event h
  exact (applyEvent_frameInv hu (inv.of_frame rfl)).of_frame rfl

/-! ## The byte stream (R39, R136) -/

/-- A handler step appends to the stream at an enabled stop position alone, whose consumer makes no request (R127, R130,
R131). -/
theorem handlerStep_rxStream {c : Option Request} {s t : State} (h : handlerStep c s = .next t) :
    t.rxStream = s.rxStream ∨
    (t.rxStream = s.rxStream ++ [s.frame.accumulatedByte] ∧ s.frame.bitIndex = 10#4 ∧ s.handlerEnabled = true ∧
      c = none) := by
  obtain ⟨-, rfl⟩ | ⟨-, -, rfl⟩ | ⟨enabled, -, u, hu, rfl⟩ := handlerStep_cases h
  · exact .inl rfl
  · exact .inl (by simp)
  · obtain ⟨-, rfl⟩ | ⟨-, -, rfl⟩ | ⟨-, rfl⟩ | ⟨stop, rfl, rfl⟩ := consumeBit_cases hu
    · exact .inl (by simp)
    · exact .inl (by simp)
    · exact .inl (by simp)
    · exact .inr ⟨by simp, BitVec.eq_of_toNat_eq (by simpa using stop), enabled, rfl⟩

theorem engineStep_rxStream {s t : State} (h : engineStep s = .next t) : t.rxStream = s.rxStream := by
  obtain ⟨-, -, rfl⟩ | ⟨-, -, rfl⟩ | ⟨-, -, rfl⟩ | ⟨it, rest, -, -, rfl⟩ | ⟨p, -, rfl⟩ | ⟨i, p, b, -, -, rfl⟩ |
    ⟨j, p, -, rfl⟩ | ⟨-, hc⟩ := engineStep_cases h
  case inr.inr.inr.inr.inr.inr.inr =>
    obtain ⟨syn, -, rfl⟩ := ctEnd_cases hc
    simp
  all_goals simp

theorem requestStep_rxStream {r : Request} {s t : State} (h : requestStep r s = .next t) : t.rxStream = s.rxStream := by
  obtain ⟨i, it, rest, -, -, -, rfl⟩ | ⟨c, d, k, -, -, -, rfl⟩ := requestStep_cases h <;> simp

/-- What an event can do to the stream: nothing, unless it is an enabled handler step at the stop position. -/
theorem applyEvent_rxStream {e : Event} {s t : State} (h : applyEvent e s = .next t) :
    t.rxStream = s.rxStream ∨
    (t.rxStream = s.rxStream ++ [s.frame.accumulatedByte] ∧ s.frame.bitIndex = 10#4 ∧ s.handlerEnabled = true ∧
      e = .handler none) := by
  cases e with
  | device l low => injection h with h; exact .inl (by simp [← h])
  | time d => injection h with h; exact .inl (by subst h; rfl)
  | engine => exact .inl (engineStep_rxStream h)
  | handler c =>
    obtain same | ⟨appended, stop, enabled, rfl⟩ := handlerStep_rxStream h
    · exact .inl same
    · exact .inr ⟨appended, stop, enabled, rfl⟩
  | caller r => exact .inl (requestStep_rxStream h)
  | readSnapshot => rw [readSnapshot_next h]; exact .inl rfl

/-- Settles O25, by what an event can do to the stream. -/
theorem onlyTheHandlerAppendsToTheByteStream : Obligations.OnlyTheHandlerAppendsToTheByteStream := by
  unfold Obligations.OnlyTheHandlerAppendsToTheByteStream
  intro s t h
  obtain ⟨inputs, choices, u, hu, rfl⟩ := step_event h
  obtain same | ⟨appended, stop, enabled, event⟩ := applyEvent_rxStream hu
  · exact .inl same
  · obtain ⟨pending, gate, -⟩ := handlerEnabled_iff.mp enabled
    exact .inr ⟨appended, stop, pending, gate, event⟩

end Sys2Proof.Machine
end

section
/-! PROOFS. The two modes (R27, R31, R62, R254) over every step of the machine: what leaves the modes alone, and what changes
them: a transaction's start, its end, and `begin`. -/

namespace Sys2Proof.Machine

/-! ## What leaves the modes alone -/

/-- The modes of `t` are those of `s`: the position stays on its side, and nothing that a mode fixes is written. -/
structure State.KeepsModes (t s : State) : Prop where
  inHandler : t.inHandler = s.inHandler
  gate : t.gate = s.gate
  configured : t.configured = s.configured
  inTxn : t.inTxn = s.inTxn
  op : t.op = s.op
  suspended : t.suspended = s.suspended
  side : t.seq.inTransaction = s.seq.inTransaction
  begins : t.seq = .ctBegin → s.op.todo ≠ []
  frame : s.inTxn = true → t.frame = s.frame
  edge : t.edgePending = true → s.edgePending = true ∨ s.configured = true

theorem State.waiting_congr {s t : State} (op : t.op = s.op) (suspended : t.suspended = s.suspended) :
    t.waiting = s.waiting := by
  rw [State.waiting, op, suspended, State.waiting]

theorem State.ModeInv.keep {s t : State} (inv : s.ModeInv) (k : t.KeepsModes s) : t.ModeInv where
  handlerOff := k.inHandler.trans inv.handlerOff
  gate := by rw [k.gate, k.configured, k.inTxn, inv.gate]
  txnConfigured := by rw [k.inTxn, k.configured]; exact inv.txnConfigured
  txnSeq := by rw [k.inTxn, k.side, inv.txnSeq]
  frameIdle busy := by rw [k.inTxn] at busy; rw [k.frame busy, inv.frameIdle busy]
  edgeConfigured pending := by rw [k.configured]; exact (k.edge pending).elim inv.edgeConfigured id
  beginHasItem hq := by rw [k.op]; exact k.begins hq
  waitingConfigured := by rw [State.waiting_congr k.op k.suspended, k.configured]; exact inv.waitingConfigured
  suspendedWait := by rw [k.suspended]; exact inv.suspendedWait
  suspendedUnder := by rw [k.inTxn, k.op, k.suspended]; exact inv.suspendedUnder

section
variable {s : State} (inv : s.ModeInv)
include inv

/-- A step that leaves the position and the operation as they are, and raises no edge. -/
theorem State.ModeInv.keepsModes {t : State} (inHandler : t.inHandler = s.inHandler) (gate : t.gate = s.gate)
    (configured : t.configured = s.configured) (inTxn : t.inTxn = s.inTxn) (op : t.op = s.op)
    (suspended : t.suspended = s.suspended) (seq : t.seq = s.seq) (frame : s.inTxn = true → t.frame = s.frame)
    (edge : t.edgePending = true → s.edgePending = true) : t.KeepsModes s :=
  ⟨inHandler, gate, configured, inTxn, op, suspended, congrArg Seq.inTransaction seq,
    fun hq => inv.beginHasItem (seq.symm.trans hq), frame, fun pending => .inl (edge pending)⟩

/-- The modes do not look at the model's own fields. -/
theorem State.ModeInv.withEvents (inputs : List Event) (choices : Nat) :
    { s with inputs := inputs, choices := choices }.ModeInv :=
  inv.keep (inv.keepsModes rfl rfl rfl rfl rfl rfl rfl (fun _ => rfl) id)

theorem State.ModeInv.busy_iff : s.inTxn = true ↔ s.seq.inTransaction = true := by rw [inv.txnSeq]

theorem State.ModeInv.gate_of_busy (busy : s.inTxn = true) : s.gate = false := by
  rw [inv.gate, busy, Bool.not_true, Bool.and_false]

/-- The handler never runs in a transaction (R62, R254). -/
theorem State.ModeInv.free_of_enabled (enabled : s.handlerEnabled = true) : s.inTxn = false := by
  obtain ⟨-, gate, -⟩ := handlerEnabled_iff.mp enabled
  refine Bool.eq_false_iff.mpr fun busy => ?_
  rw [inv.gate_of_busy busy] at gate
  cases gate

/-- Outside a transaction the handler's step is enabled exactly if an edge is pending (R121). -/
theorem State.ModeInv.enabled_of_free (free : s.inTxn = false) (pending : s.edgePending = true) :
    s.handlerEnabled = true := by
  refine handlerEnabled_iff.mpr ⟨pending, ?_, inv.handlerOff⟩
  rw [inv.gate, free, inv.edgeConfigured pending]
  rfl

end

/-- The edge detector latches an edge only once configured (R120). -/
theorem latchEdge_keepsModes (s t : State) (begins : t.seq = .ctBegin → t.op.todo ≠ []) : (latchEdge s t).KeepsModes t where
  inHandler := rfl
  gate := rfl
  configured := rfl
  inTxn := rfl
  op := rfl
  suspended := rfl
  side := rfl
  begins := begins
  frame _ := rfl
  edge pending := by
    rw [latchEdge_edgePending, Bool.or_eq_true, Bool.and_eq_true, latches_iff] at pending
    exact pending.imp_right fun ⟨_, configured, _⟩ => configured

theorem handlerStep_keepsModes {c : Option Request} {s t : State} (h : handlerStep c s = .next t) (inv : s.ModeInv) :
    t.KeepsModes s := by
  have writesFrame (enabled : s.handlerEnabled = true) (busy : s.inTxn = true) : t.frame = s.frame := by
    rw [inv.free_of_enabled enabled] at busy
    cases busy
  obtain ⟨-, rfl⟩ | ⟨enabled, -, rfl⟩ | ⟨enabled, -, u, hu, rfl⟩ := handlerStep_cases h
  · exact inv.keepsModes rfl rfl rfl rfl rfl rfl rfl (fun _ => rfl) id
  · apply inv.keepsModes (frame := writesFrame enabled) <;> simp [inv.handlerOff]
  · obtain ⟨-, rfl⟩ | ⟨-, -, rfl⟩ | ⟨-, rfl⟩ | ⟨-, -, rfl⟩ := consumeBit_cases hu <;>
      apply inv.keepsModes (frame := writesFrame enabled) <;> simp [inv.handlerOff]

/-! ## The positions of a transaction -/

theorem afterReads_inTransaction (nRecv j : Nat) : (Seq.afterReads nRecv j).inTransaction = true := by
  unfold Seq.afterReads
  split <;> rfl

theorem afterWrites_inTransaction (nSend nRecv i : Nat) : (Seq.afterWrites nSend nRecv i).inTransaction = true := by
  unfold Seq.afterWrites
  split
  · rfl
  · exact afterReads_inTransaction nRecv 0

/-- A transaction stays one until `CT_END` is left (R173). -/
theorem next_inTransaction {q : Seq} (h : q.inTransaction = true) (before : q ≠ .ctEnd) (nSend nRecv : Nat) :
    (q.next nSend nRecv).inTransaction = true := by
  cases q with
  | idle => cases h
  | ctBegin => cases h
  | ctOpcode p =>
    rw [next_ctOpcode]
    cases p.next with
    | none => exact afterWrites_inTransaction _ _ _
    | some p => rfl
  | ctArg i p =>
    rw [next_ctArg]
    cases p.next with
    | none => exact afterWrites_inTransaction _ _ _
    | some p => rfl
  | ctResp j p =>
    rw [next_ctResp]
    cases p.next with
    | none => exact afterReads_inTransaction _ _
    | some p => rfl
  | ctEnd => exact absurd rfl before

theorem advance_modeInv {s : State} (inv : s.ModeInv) (side : s.seq.inTransaction = true) (before : s.seq ≠ .ctEnd)
    (done : Bool) : (advance done s).ModeInv := by
  have stays : (advance done s).seq.inTransaction = true := by
    rw [advance_seq]
    split
    · exact next_inTransaction side before _ _
    · exact side
  refine inv.keep ⟨by simp, by simp, by simp, by simp, by simp, by simp, stays.trans side.symm, fun hq => ?_, by simp, ?_⟩
  · rw [hq] at stays
    cases stays
  · simpa using .inl

/-! ## A transaction's start and end, and `begin` -/

theorem ctBegin_modeInv {it : Item} {s : State} (handlerOff : s.inHandler = false) (configured : s.configured = true)
    (wait : ∀ o ∈ s.suspended, o.todo ≠ []) : (ctBegin it s).ModeInv where
  handlerOff := handlerOff
  gate := by simp
  txnConfigured _ := configured
  txnSeq := rfl
  frameIdle _ := rfl
  edgeConfigured _ := configured
  beginHasItem hq := nomatch hq
  waitingConfigured _ := configured
  suspendedWait := wait
  suspendedUnder free := nomatch free

/-- What still has to begin does not change as a transaction ends: a composite that goes on was waiting (R217, log 13). -/
theorem returnResult_waiting (s : State) : (returnResult s).waiting = s.waiting := by
  rw [State.waiting, State.waiting, returnResult_op, returnResult_suspended]
  by_cases done : s.op.todo = []
  · rw [if_pos done, if_pos done, done]
    cases s.suspended with
    | nil => rw [List.headD_nil, done]; rfl
    | cons o rest => rfl
  · rw [if_neg done, if_neg done]

/-- After an operation's end a composite runs, if one was put aside (log 13). -/
theorem returnResult_suspendedUnder {s : State} (wait : ∀ o ∈ s.suspended, o.todo ≠ [])
    (done : (returnResult s).op.todo = []) : (returnResult s).suspended = [] := by
  rw [returnResult_op] at done
  rw [returnResult_suspended]
  split at done
  · next last =>
    rw [if_pos last]
    cases hs : s.suspended with
    | nil => rfl
    | cons o rest =>
      rw [hs] at wait done
      exact absurd done (wait o List.mem_cons_self)
  · next more => exact absurd done more

theorem ctEnd_modeInv {s t : State} (h : ctEnd s = .next t) (inv : s.ModeInv) (hs : s.seq = .ctEnd) : t.ModeInv := by
  have configured : s.configured = true := inv.txnConfigured (inv.busy_iff.mpr (by rw [hs]; rfl))
  obtain ⟨syn, -, rfl⟩ := ctEnd_cases h
  exact {
    handlerOff := by simp [inv.handlerOff]
    gate := by simp [configured]
    txnConfigured := by simp
    txnSeq := by simp [Seq.inTransaction]
    frameIdle := by simp
    edgeConfigured := by simp [configured]
    beginHasItem := by simp
    waitingConfigured := by simp [configured]
    suspendedWait := fun o ho => by
      rw [returnResult_suspended] at ho
      split at ho
      · exact inv.suspendedWait o (List.mem_of_mem_tail ho)
      · exact inv.suspendedWait o ho
    suspendedUnder := fun _ => returnResult_suspendedUnder inv.suspendedWait }

theorem engineStep_modeInv {s t : State} (h : engineStep s = .next t) (inv : s.ModeInv) : t.ModeInv := by
  obtain ⟨-, -, rfl⟩ | ⟨hs, more, rfl⟩ | ⟨hs, none, -⟩ | ⟨it, rest, hs, hr, rfl⟩ | ⟨p, hs, rfl⟩ | ⟨i, p, b, hs, -, rfl⟩ |
    ⟨j, p, hs, rfl⟩ | ⟨hs, hc⟩ := engineStep_cases h
  · exact inv
  · exact inv.keep ⟨rfl, rfl, rfl, rfl, rfl, rfl, by rw [hs]; rfl, fun _ => more, fun _ => rfl, .inl⟩
  · exact absurd none (inv.beginHasItem hs)
  · refine ctBegin_modeInv inv.handlerOff (inv.waitingConfigured ?_) inv.suspendedWait
    rw [State.waiting, hr]
    exact List.cons_ne_nil _ _
  · exact advance_modeInv (inv.keep (by apply inv.keepsModes <;> simp)) (by simp [hs, Seq.inTransaction]) (by simp [hs]) _
  · exact advance_modeInv (inv.keep (by apply inv.keepsModes <;> simp)) (by simp [hs, Seq.inTransaction]) (by simp [hs]) _
  · exact advance_modeInv (inv.keep (by apply inv.keepsModes <;> simp)) (by simp [hs, Seq.inTransaction]) (by simp [hs]) _
  · exact ctEnd_modeInv hc inv hs

theorem requestStep_modeInv {r : Request} {s t : State} (h : requestStep r s = .next t) (inv : s.ModeInv) : t.ModeInv := by
  obtain ⟨i, it, rest, ready, -, -, rfl⟩ | ⟨c, d, k, ⟨handlerOff, -⟩, free, -, rfl⟩ := requestStep_cases h
  · refine ctBegin_modeInv (by simpa using ready.noHandler) (by simpa using ready.configured) fun o ho => ?_
    simp only [suspend_suspended] at ho
    split at ho
    · exact inv.suspendedWait o ho
    · next running => exact (List.mem_cons.mp ho).elim (fun same => same ▸ running) (inv.suspendedWait o)
  · exact {
      handlerOff := handlerOff
      gate := by simp [free]
      txnConfigured := fun _ => rfl
      txnSeq := free
      frameIdle := fun _ => rfl
      edgeConfigured := fun _ => rfl
      beginHasItem := fun hq => nomatch hq
      waitingConfigured := fun _ => rfl
      suspendedWait := inv.suspendedWait
      suspendedUnder := inv.suspendedUnder }

theorem applyEvent_modeInv {e : Event} {s t : State} (h : applyEvent e s = .next t) (inv : s.ModeInv) : t.ModeInv := by
  cases e with
  | device l low => injection h with h; subst h; exact inv.keep (by apply inv.keepsModes <;> simp)
  | time d => injection h with h; subst h; exact inv.keep (inv.keepsModes rfl rfl rfl rfl rfl rfl rfl (fun _ => rfl) id)
  | engine => exact engineStep_modeInv h inv
  | handler c => exact inv.keep (handlerStep_keepsModes h inv)
  | caller r => exact requestStep_modeInv h inv
  | readSnapshot => rw [readSnapshot_next h]; exact inv

/-- Every step keeps the two modes apart (R254). -/
theorem step_modeInv {s t : State} (h : step s = .next t) (inv : s.ModeInv) : t.ModeInv := by
  obtain ⟨inputs, choices, u, hu, rfl⟩ := step_event h
  have after : u.ModeInv := applyEvent_modeInv hu (inv.withEvents inputs choices)
  exact after.keep (latchEdge_keepsModes _ u after.beginHasItem)

end Sys2Proof.Machine
end

section
/-! PROOFS. When the handler's step is taken (R62, R121, R251): not while it is disabled, and at last while it stays
enabled. -/

namespace Sys2Proof.Machine

/-- Outside a transaction every quiet event but the handler's has a next state: the engine only idles or begins (R173). -/
theorem applyEvent_quiet {e : Event} {s : State} (inv : s.ModeInv) (free : s.inTxn = false) (hq : quiet e = true)
    (other : e ≠ .handler none) : ∃ t, applyEvent e s = .next t := by
  cases e with
  | device l low => exact ⟨_, rfl⟩
  | time d => exact ⟨_, rfl⟩
  | engine =>
    have outside : s.seq.inTransaction = false := inv.txnSeq.symm.trans free
    cases hs : s.seq with
    | idle => exact ⟨_, by simp only [applyEvent, engineStep, hs]; rfl⟩
    | ctBegin =>
      cases ht : s.op.todo with
      | nil => exact absurd ht (inv.beginHasItem hs)
      | cons it rest => exact ⟨_, by simp only [applyEvent, engineStep, hs, ht]; rfl⟩
    | _ => rw [hs] at outside; cases outside
  | handler c =>
    cases c with
    | none => exact absurd rfl other
    | some r => cases hq
  | caller r => cases hq
  | readSnapshot => cases hq

/-- An enabled handler step stays enabled over any other quiet event, unless a transaction begins (R120, R249). -/
theorem step_keeps_enabled {e : Event} {s : State} (inv : s.ModeInv) (enabled : s.handlerEnabled = true)
    (hq : quiet e = true) (other : e ≠ .handler none) :
    ∃ t, step { s with inputs := [e] } = .next t ∧ t.ModeInv ∧ (t.inTxn = true ∨ t.handlerEnabled = true) := by
  have before (l : List Event) : { s with inputs := l }.ModeInv := inv.withEvents l s.choices
  obtain ⟨u, hu⟩ := applyEvent_quiet (before []) (inv.free_of_enabled enabled) hq other
  have hs : step { s with inputs := [e] } = .next (latchEdge { s with inputs := [] } u) := by
    rw [step_listed (s := { s with inputs := [e] }) rfl, hu]; rfl
  have after := step_modeInv hs (before [e])
  refine ⟨_, hs, after, ?_⟩
  obtain ⟨left, n, used, edge⟩ := step_edgePending hs
  cases used with
  | kept =>
    cases free : (latchEdge { s with inputs := [] } u).inTxn with
    | true => exact .inl rfl
    | false =>
      refine .inr (after.enabled_of_free free ?_)
      rw [edge, (handlerEnabled_iff.mp enabled).1, Bool.true_or]
  | taken byHandler =>
    obtain ⟨c, rfl⟩ : ∃ c, e = .handler c := byHandler
    cases c with
    | none => exact absurd rfl other
    | some r => cases hq
  | masked begins begun => exact .inl begun.inTxn
  | setUp byBegin =>
    obtain ⟨c, d, k, rfl⟩ : ∃ c d k, e = .caller (.begin c d k) := byBegin
    cases hq

/-- The run of a schedule's next event. -/
theorem afterEvents_succ {schedule : Nat → Event} {n : Nat} {s t u : State}
    (h : afterEvents (firstEvents schedule n) s = .next t) (hs : step { t with inputs := [schedule n] } = .next u) :
    afterEvents (firstEvents schedule (n + 1)) s = .next u := by
  rw [firstEvents_succ, afterEvents_append h, afterEvents, hs]
  rfl

/-- The handler's step has come, or a transaction has begun, at the `n`-th event of a run. -/
def answeredAt (s : State) (schedule : Nat → Event) (n : Nat) : Prop :=
  ∃ t, afterEvents (firstEvents schedule n) s = .next t ∧
    (t.inTxn = true ∨ (t.handlerEnabled = true ∧ schedule n = .handler none))

/-- Until then the handler's step stays enabled. -/
theorem answered_or_enabled {s : State} {schedule : Nat → Event} (inv : s.ModeInv)
    (allQuiet : ∀ n, quiet (schedule n) = true) (enabled : s.handlerEnabled = true) (n : Nat) :
    (∃ k, answeredAt s schedule k) ∨
    ∃ t, afterEvents (firstEvents schedule n) s = .next t ∧ t.ModeInv ∧ t.handlerEnabled = true := by
  induction n with
  | zero => exact .inr ⟨s, rfl, inv, enabled⟩
  | succ n ih =>
    obtain answered | ⟨t, run, invT, enabledT⟩ := ih
    · exact .inl answered
    by_cases handler : schedule n = .handler none
    · exact .inl ⟨n, t, run, .inr ⟨enabledT, handler⟩⟩
    obtain ⟨u, hs, invU, busy | enabledU⟩ := step_keeps_enabled invT enabledT (allQuiet n) handler
    · exact .inl ⟨n + 1, u, afterEvents_succ run hs, .inl busy⟩
    · exact .inr ⟨u, afterEvents_succ run hs, invU, enabledU⟩

/-- Settles O21: a disabled step stutters, and an enabled one stays enabled up to the event at which fairness asks for it. -/
theorem closedGateKeepsTheHandlerOut : Obligations.ClosedGateKeepsTheHandlerOut := by
  unfold Obligations.ClosedGateKeepsTheHandlerOut
  refine ⟨fun s c => ⟨fun h => handlerStep_disabled ?_ c, fun inv busy => handlerStep_disabled ?_ c⟩,
    fun s schedule inv fair allQuiet enabled => ?_⟩
  · rcases h with h | h | h <;> simp [State.handlerEnabled, h]
  · simp [State.handlerEnabled, inv.gate_of_busy busy]
  · obtain ⟨m, -, due⟩ := fair 0
    obtain answered | ⟨t, run, -, enabledT⟩ := answered_or_enabled inv allQuiet enabled m
    · exact answered
    obtain ⟨consumer, handler⟩ | disabled := due
    · have noRequest := allQuiet m
      rw [handler] at noRequest
      cases consumer with
      | none => exact ⟨m, t, run, .inr ⟨enabledT, handler⟩⟩
      | some r => cases noRequest
    · rw [disabled t run] at enabledT
      cases enabledT

end Sys2Proof.Machine
end

section
/-! PROOFS. The things to be kept of a series (R38, R215): they stay ready when more is in the store, and an operation's
own series finds what it reads. -/

namespace Sys2Proof.Machine

/-! ## A store that holds at least as much -/

/-- Every element that is written in `y` is written in `y'`. -/
structure SynState.Covers (y' y : SynState) : Prop where
  version : y.version.isSome → y'.version.isSome
  extCaps : y.extCaps.isSome → y'.extCaps.isSome
  resolution : y.resolution.isSome → y'.resolution.isSome
  clickpad : y.clickpad.isSome → y'.clickpad.isSome
  snapshot : y.snapshot.isSome → y'.snapshot.isSome

theorem SynState.Covers.keep {y y' : SynState} (h : y'.Covers y) (q : QueryName) (r : Response) :
    (y'.keep q r).Covers (y.keep q r) := by
  obtain ⟨hv, he, hr, hc, hs⟩ := h
  cases q with
  | version => exact ⟨id, he, hr, hc, hs⟩
  | extCaps => exact ⟨hv, id, hr, hc, hs⟩
  | resolution => exact ⟨hv, he, id, hc, hs⟩
  | clickpad => exact ⟨hv, he, hr, id, hs⟩

/-- A parse reads the four responses and writes the snapshot (R215). -/
theorem parse_eq_some {y y1 : SynState} : y.parse = some y1 ↔
    ∃ v e r c, (y.version = some v ∧ y.extCaps = some e ∧ y.resolution = some r ∧ y.clickpad = some c) ∧
      y1 = { y with snapshot := some (parseSnapshot v e r c) } := by
  constructor
  · intro h
    unfold SynState.parse at h
    split at h
    · next v e r c hv he hr hc => injection h with h; exact ⟨v, e, r, c, ⟨hv, he, hr, hc⟩, h.symm⟩
    · cases h
  · rintro ⟨v, e, r, c, ⟨hv, he, hr, hc⟩, rfl⟩
    simp only [SynState.parse, hv, he, hr, hc]

theorem SynState.Covers.parse {y y' y1 : SynState} (h : y'.Covers y) (hp : y.parse = some y1) :
    ∃ y1', y'.parse = some y1' ∧ y1'.Covers y1 ∧ y1'.complete := by
  obtain ⟨v, e, r, c, ⟨hv, he, hr, hc⟩, rfl⟩ := parse_eq_some.mp hp
  obtain ⟨v', hv'⟩ := Option.isSome_iff_exists.mp (h.version (by rw [hv]; rfl))
  obtain ⟨e', he'⟩ := Option.isSome_iff_exists.mp (h.extCaps (by rw [he]; rfl))
  obtain ⟨r', hr'⟩ := Option.isSome_iff_exists.mp (h.resolution (by rw [hr]; rfl))
  obtain ⟨c', hc'⟩ := Option.isSome_iff_exists.mp (h.clickpad (by rw [hc]; rfl))
  exact ⟨_, parse_eq_some.mpr ⟨v', e', r', c', ⟨hv', he', hr', hc'⟩, rfl⟩,
    ⟨h.version, h.extCaps, h.resolution, h.clickpad, fun _ => rfl⟩, fun _ => rfl⟩

theorem complete_keep {y : SynState} (q : QueryName) (r : Response) : (y.keep q r).complete ↔ y.complete := by
  cases q <;> rfl

/-- What is kept at a transaction's end is kept by a store that holds at least as much, too. -/
theorem SynState.Covers.after {y y' y1 : SynState} {p : Post} {results : List Byte} (h : y'.Covers y)
    (complete : y'.complete) (hp : y.after p results = some y1) (complete1 : y1.complete) :
    ∃ y1', y'.after p results = some y1' ∧ y1'.Covers y1 ∧ y1'.complete := by
  unfold SynState.after at hp
  split at hp
  · injection hp with hp
    subst hp
    exact ⟨y', rfl, h, complete⟩
  · injection hp with hp
    subst hp
    exact ⟨_, rfl, h.keep _ _, (complete_keep _ _).mpr complete⟩
  · exact (h.keep _ _).parse hp
  · injection hp with hp
    subst hp
    exact ⟨_, rfl, ⟨h.version, h.extCaps, h.resolution, h.clickpad, h.snapshot⟩, fun _ => h.snapshot (complete1 rfl)⟩
  · cases hp

theorem postsReady_covers {y y' : SynState} {posts : List Post} (h : y'.Covers y) (complete : y'.complete)
    (ready : postsReady y posts) : postsReady y' posts := by
  induction posts generalizing y y' with
  | nil => exact complete
  | cons p rest ih =>
    refine ⟨complete, fun results count => ?_⟩
    obtain ⟨y1, after, ready1⟩ := ready.2 results count
    obtain ⟨y1', after', covers, complete'⟩ := h.after complete after (postsReady_complete ready1)
    exact ⟨y1', after', ih covers complete' ready1⟩

/-! ## What an operation's series keeps -/

section
variable {y : SynState} {rest : List Post}

theorem postsReady_nothing : postsReady y (.nothing :: rest) ↔ postsReady y rest := by
  refine ⟨fun h => ?_, fun h => ⟨postsReady_complete h, fun _ _ => ⟨y, rfl, h⟩⟩⟩
  obtain ⟨y', after, ready⟩ := h.2 [] trivial
  injection after with after
  exact after ▸ ready

theorem postsReady_nothings {posts : List Post} (h : ∀ p ∈ posts, p = .nothing) (ready : postsReady y rest) :
    postsReady y (posts ++ rest) := by
  induction posts with
  | nil => exact ready
  | cons p posts ih =>
    obtain ⟨rfl, tail⟩ := List.forall_mem_cons.mp h
    exact postsReady_nothing.mpr (ih tail)

/-- Three results are those of one response. -/
theorem exists_eq_of_length_eq_three {l : List Byte} (h : l.length = 3) : ∃ a b c, l = [a, b, c] :=
  match l, h with
  | [a, b, c], _ => ⟨a, b, c, rfl⟩

theorem postsReady_keep {q : QueryName} (complete : y.complete) (h : ∀ r, postsReady (y.keep q r) rest) :
    postsReady y (.keep q :: rest) := by
  refine ⟨complete, fun results count => ?_⟩
  obtain ⟨r0, r1, r2, rfl⟩ := exists_eq_of_length_eq_three count
  exact ⟨_, rfl, h _⟩

theorem postsReady_keepAndParse {q : QueryName} (complete : y.complete)
    (h : ∀ r, ∃ y', (y.keep q r).parse = some y' ∧ postsReady y' rest) : postsReady y (.keepAndParse q :: rest) := by
  refine ⟨complete, fun results count => ?_⟩
  obtain ⟨r0, r1, r2, rfl⟩ := exists_eq_of_length_eq_three count
  exact h _

theorem postsReady_initDone (complete : y.complete) (h : postsReady { y with initDone := true } rest) :
    postsReady y (.initDone :: rest) :=
  ⟨complete, fun _ _ => ⟨_, rfl, h⟩⟩

end

theorem map_post_queryItems (c : Byte) (p : Post) :
    (queryItems c p).map Item.post = [.nothing, .nothing, .nothing, .nothing, p] := rfl

theorem map_post_modeProgramItems (p : Post) :
    (modeProgramItems p).map Item.post = List.replicate 15 .nothing ++ [p] := rfl

/-- The series of `syn_init` keeps the four responses, parses them and completes the initialization (R215); a composite put
aside for it finds more in the store after it than before. -/
theorem postsReady_synInit {y : SynState} {posts : List Post} (ready : postsReady y posts) (cfg : Config.Params) :
    postsReady y ((synInitItems cfg).map Item.post ++ posts) := by
  have complete := postsReady_complete ready
  simp only [synInitItems, List.map_append, map_post_queryItems, map_post_modeProgramItems, List.append_assoc,
    List.cons_append, List.nil_append, postsReady_nothing]
  refine postsReady_keep complete fun v => ?_
  simp only [postsReady_nothing]
  refine postsReady_keep complete fun e => ?_
  simp only [postsReady_nothing]
  refine postsReady_keep complete fun r => ?_
  simp only [postsReady_nothing]
  refine postsReady_keepAndParse complete fun c => ⟨_, rfl, ?_⟩
  refine postsReady_nothings (fun p hp => List.eq_of_mem_replicate hp) ?_
  refine postsReady_initDone (fun _ => rfl) ?_
  exact postsReady_covers ⟨fun _ => rfl, fun _ => rfl, fun _ => rfl, fun _ => rfl, fun _ => rfl⟩ (fun _ => rfl) ready

theorem postsReady_expansion {y : SynState} {posts : List Post} (ready : postsReady y posts) (cfg : Config.Params)
    (i : Instr) : postsReady y ((expansion cfg i).map Item.post ++ posts) := by
  cases i with
  | synInit => exact postsReady_synInit ready cfg
  | _ =>
    refine postsReady_nothings ?_ ready
    simp [expansion, encodedItems, queryItems, setModeItems, modeProgramItems, item]

theorem expansion_sound {i : Instr} (wf : i.WellFormed) (cfg : Config.Params) :
    ∀ it ∈ expansion cfg i, it.args.length = sendCount it.desc ∧ it.post.counted (recvCount it.desc) := by
  cases i with
  | setscale11 => exact Laws.Expansion.setscale11 wf cfg
  | setrate r => exact Laws.Expansion.setrate r wf cfg
  | enable => exact Laws.Expansion.enable wf cfg
  | disable => exact Laws.Expansion.disable wf cfg
  | resetBat => exact Laws.Expansion.resetBat wf cfg
  | setres a => exact Laws.Expansion.setres a wf cfg
  | getinfo => exact Laws.Expansion.getinfo wf cfg
  | command desc args => exact Laws.Expansion.command desc args wf cfg
  | encoded b => exact Laws.Expansion.encoded b wf cfg
  | query c => exact Laws.Expansion.query c wf cfg
  | setMode m r => exact Laws.Expansion.setMode m r wf cfg
  | modeProgram => exact Laws.Expansion.modeProgram wf cfg
  | synInit => exact Laws.Expansion.synInit wf cfg

end Sys2Proof.Machine
end

section
/-! PROOFS. The transaction registers (R33, R165-R169) over every step of the machine: they agree with the position and with
the operation. -/

namespace Sys2Proof.Machine

/-! ## What leaves the agreement alone -/

/-- The operation and the store of `t` are those of `s`, and so is what a transaction latches (R33). -/
structure State.KeepsTxn (t s : State) : Prop where
  inTxn : t.inTxn = s.inTxn
  desc : t.txn.desc = s.txn.desc
  args : t.txn.args = s.txn.args
  op : t.op = s.op
  suspended : t.suspended = s.suspended
  syn : t.syn = s.syn

/-- Then the agreement is a matter of the position's counts. -/
theorem State.TxnInv.keep {s t : State} (inv : s.TxnInv) (k : t.KeepsTxn s) (position : t.seq.counted t.txn) :
    t.TxnInv where
  argCount := by rw [k.inTxn, k.args, k.desc]; exact inv.argCount
  position := position
  itemArgs := by rw [State.waiting_congr k.op k.suspended]; exact inv.itemArgs
  itemPosts := by rw [State.waiting_congr k.op k.suspended]; exact inv.itemPosts
  post := by rw [k.inTxn, k.op, k.desc]; exact inv.post
  ready := by
    rw [State.posts, State.waiting_congr k.op k.suspended, k.inTxn, k.op, k.syn]
    exact inv.ready

/-- A step that writes neither the position nor the transaction registers. -/
theorem State.TxnInv.same {s t : State} (inv : s.TxnInv) (inTxn : t.inTxn = s.inTxn) (txn : t.txn = s.txn)
    (seq : t.seq = s.seq) (op : t.op = s.op) (suspended : t.suspended = s.suspended) (syn : t.syn = s.syn) : t.TxnInv :=
  inv.keep ⟨inTxn, congrArg Txn.desc txn, congrArg Txn.args txn, op, suspended, syn⟩ (by rw [seq, txn]; exact inv.position)

theorem handlerStep_txnInv {c : Option Request} {s t : State} (h : handlerStep c s = .next t) (inv : s.TxnInv) :
    t.TxnInv := by
  obtain ⟨-, rfl⟩ | ⟨-, -, rfl⟩ | ⟨-, -, u, hu, rfl⟩ := handlerStep_cases h
  · exact inv
  · apply inv.same <;> simp
  · obtain ⟨-, rfl⟩ | ⟨-, -, rfl⟩ | ⟨-, rfl⟩ | ⟨-, -, rfl⟩ := consumeBit_cases hu <;> apply inv.same <;> simp

/-! ## The counts at the next position (R165, R167, R168) -/

theorem afterReads_counted {t : Txn} (more : t.results.length ≤ recvCount t.desc) :
    (Seq.afterReads (recvCount t.desc) t.results.length).counted t := by
  unfold Seq.afterReads
  split
  · next left => exact ⟨left, rfl⟩
  · next none => exact Nat.le_antisymm more (Nat.not_lt.mp none)

theorem afterWrites_counted {t : Txn} (noResults : t.results = []) (i : Nat) :
    (Seq.afterWrites (sendCount t.desc) (recvCount t.desc) i).counted t := by
  unfold Seq.afterWrites
  split
  · next left => exact ⟨left, noResults⟩
  · have := afterReads_counted (t := t) (by rw [noResults]; exact Nat.zero_le _)
    rwa [noResults] at this

theorem next_counted_ctOpcode {t : Txn} {p : WritePos} (h : (Seq.ctOpcode p).counted t) :
    ((Seq.ctOpcode p).next (sendCount t.desc) (recvCount t.desc)).counted t := by
  rw [next_ctOpcode]
  cases p.next with
  | none => exact afterWrites_counted h 0
  | some q => exact h

theorem next_counted_ctArg {t : Txn} {i : Nat} {p : WritePos} (h : (Seq.ctArg i p).counted t) :
    ((Seq.ctArg i p).next (sendCount t.desc) (recvCount t.desc)).counted t := by
  rw [next_ctArg]
  cases p.next with
  | none => exact afterWrites_counted h.2 (i + 1)
  | some q => exact h

/-- The counts look at the descriptor and at the results. -/
theorem counted_congr {q : Seq} {t t' : Txn} (desc : t'.desc = t.desc) (results : t'.results = t.results)
    (h : q.counted t) : q.counted t' := by
  cases q <;> simp only [Seq.counted, desc, results] at h ⊢ <;> exact h

theorem advance_counted {s : State} {done : Bool} (stays : done = false → s.seq.counted s.txn)
    (leaves : done = true → (s.seq.next (sendCount s.txn.desc) (recvCount s.txn.desc)).counted s.txn) :
    (advance done s).seq.counted (advance done s).txn := by
  rw [advance_seq, advance_txn]
  cases done with
  | false => exact stays rfl
  | true => exact leaves rfl

/-! ## The engine's primitives -/

theorem writeEffect_keepsTxn (b : Byte) (p : WritePos) (s : State) (done : Bool) :
    (advance done (writeEffect b p s)).KeepsTxn s := by
  constructor <;> simp

theorem response_keepsTxn (p : ReadPos) (s : State) (done : Bool) :
    (advance done (takeResponse p (readEffect p s))).KeepsTxn s := by
  constructor <;> simp

/-- The write at a position takes no response. -/
theorem write_counted {s : State} (h : s.seq.counted s.txn) (b : Byte) (p : WritePos) :
    (writeEffect b p s).seq.counted (writeEffect b p s).txn := by
  rw [writeEffect_seq]
  exact counted_congr (by simp) (by simp) h

/-- A read returns at `RB_PULSE_REL` alone (R163). -/
theorem next_of_ne_pulseRel {p : ReadPos} (h : p ≠ .pulseRel) : ∃ q, p.next = some q := by
  cases p with
  | waitLow k w => cases w <;> exact ⟨_, rfl⟩
  | sample k => exact ⟨_, rfl⟩
  | waitHigh k w =>
    cases w with
    | enter => exact ⟨_, rfl⟩
    | poll =>
      rw [ReadPos.next]
      split <;> exact ⟨_, rfl⟩
  | pulseLow => exact ⟨_, rfl⟩
  | pulseHold w => cases w <;> exact ⟨_, rfl⟩
  | pulseRel => exact absurd rfl h

/-- A response is stored, and counted, in the step in which its read returns (R168). -/
theorem response_counted {s : State} {j : Nat} {p : ReadPos} (hs : s.seq = .ctResp j p) (h : s.seq.counted s.txn) :
    (advance (readDone p s) (takeResponse p (readEffect p s))).seq.counted
      (advance (readDone p s) (takeResponse p (readEffect p s))).txn := by
  rw [hs] at h
  obtain ⟨more, length⟩ := h
  by_cases returns : p = .pulseRel
  · subst returns
    have results : (takeResponse .pulseRel (readEffect .pulseRel s)).txn.results.length = j + 1 := by
      simp [takeResponse_results, length]
    refine advance_counted (nomatch ·) fun _ => ?_
    have hq : (takeResponse .pulseRel (readEffect .pulseRel s)).seq = .ctResp j .pulseRel := by simp [hs]
    rw [hq, next_ctResp, ReadPos.next, Option.elim, ← results]
    refine afterReads_counted ?_
    rw [results]
    simpa [Nat.add_one_le_iff] using more
  · obtain ⟨q, hq⟩ := next_of_ne_pulseRel returns
    rw [takeResponse_of_ne returns]
    apply advance_counted <;> intro _
    · simpa [hs] using ⟨more, length⟩
    · simpa [hs, next_ctResp, hq] using ⟨more, length⟩

/-! ## A transaction's start and end -/

theorem ctBegin_txnInv {it : Item} {s : State}
    (sound : ∀ x ∈ it :: s.waiting, x.args.length = sendCount x.desc ∧ x.post.counted (recvCount x.desc))
    (ready : postsReady s.syn (it.post :: s.waiting.map Item.post)) : (ctBegin it s).TxnInv := by
  obtain ⟨⟨args, post⟩, rest⟩ := List.forall_mem_cons.mp sound
  exact {
    argCount := fun _ => args
    position := rfl
    itemArgs := fun x hx => (rest x hx).1
    itemPosts := fun x hx => (rest x hx).2
    post := fun _ => post
    ready := ready }

theorem ctEnd_txnInv {s t : State} (h : ctEnd s = .next t) (inv : s.TxnInv) (hs : s.seq = .ctEnd) (busy : s.inTxn = true) :
    t.TxnInv := by
  obtain ⟨syn, after, rfl⟩ := ctEnd_cases h
  have results : s.txn.results.length = recvCount s.txn.desc := by
    have count := inv.position
    rwa [hs] at count
  have ready : postsReady s.syn (s.op.post :: s.waiting.map Item.post) := by
    have ready := inv.ready
    rwa [State.posts, busy] at ready
  obtain ⟨syn', after', ready'⟩ := ready.2 s.txn.results (by rw [results]; exact inv.post busy)
  obtain rfl : syn' = syn := Option.some.inj (after'.symm.trans after)
  exact {
    argCount := by simp
    position := by simp [Seq.counted]
    itemArgs := by rw [returnResult_waiting]; exact inv.itemArgs
    itemPosts := by rw [returnResult_waiting]; exact inv.itemPosts
    post := by simp
    ready := by
      rw [State.posts, returnResult_waiting, returnResult_inTxn, returnResult_syn]
      exact ready' }

/-! ## Every agent's step -/

theorem engineStep_txnInv {s t : State} (h : engineStep s = .next t) (mode : s.ModeInv) (inv : s.TxnInv) : t.TxnInv := by
  obtain ⟨-, -, rfl⟩ | ⟨hs, -, rfl⟩ | ⟨hs, -, rfl⟩ | ⟨it, rest, hs, hr, rfl⟩ | ⟨p, hs, rfl⟩ | ⟨i, p, b, hs, -, rfl⟩ |
    ⟨j, p, hs, rfl⟩ | ⟨hs, hc⟩ := engineStep_cases h
  · exact inv
  · exact inv.keep ⟨rfl, rfl, rfl, rfl, rfl, rfl⟩ trivial
  · exact inv.keep ⟨rfl, rfl, rfl, rfl, rfl, rfl⟩ trivial
  · have free : s.inTxn = false := by rw [mode.txnSeq, hs]; rfl
    have waiting : s.waiting = it :: { s with op := { s.op with todo := rest } }.waiting := by
      rw [State.waiting, hr]; rfl
    refine ctBegin_txnInv ?_ ?_
    · rw [← waiting]
      exact fun x hx => ⟨inv.itemArgs x hx, inv.itemPosts x hx⟩
    · have ready := inv.ready
      rwa [State.posts, free, waiting] at ready
  · have count := write_counted inv.position (opcodeByte s.txn.desc) p
    refine inv.keep (writeEffect_keepsTxn _ p s _) (advance_counted (fun _ => count) fun _ => ?_)
    rw [writeEffect_seq, hs] at count ⊢
    exact next_counted_ctOpcode count
  · have count := write_counted inv.position b p
    refine inv.keep (writeEffect_keepsTxn _ p s _) (advance_counted (fun _ => count) fun _ => ?_)
    rw [writeEffect_seq, hs] at count ⊢
    exact next_counted_ctArg count
  · exact inv.keep (response_keepsTxn p s _) (response_counted hs inv.position)
  · exact ctEnd_txnInv hc inv hs (mode.busy_iff.mpr (by rw [hs]; rfl))

/-- With an operation admitted, a composite in whose gap it comes is still waiting under it (log 13). -/
theorem suspend_waiting (s : State) (items : List Item) :
    { suspend s with op := { todo := items, ok := true, post := .nothing } }.waiting = items ++ s.waiting := by
  simp only [State.waiting, suspend_suspended]
  by_cases none : s.op.todo = []
  · rw [if_pos none, none]; rfl
  · rw [if_neg none]; rfl

theorem requestStep_txnInv {r : Request} {s t : State} (h : requestStep r s = .next t) (inv : s.TxnInv) : t.TxnInv := by
  obtain ⟨i, it, rest, ready, ⟨wf, -⟩, series, rfl⟩ | ⟨c, d, k, -, free, -, rfl⟩ := requestStep_cases h
  · have posts : postsReady s.syn (s.waiting.map Item.post) := by
      have ready' := inv.ready
      rwa [State.posts, ready.noTxn] at ready'
    have sound := expansion_sound wf s.cfg
    have series_ready := postsReady_expansion posts s.cfg i
    rw [series] at sound series_ready
    refine ctBegin_txnInv ?_ ?_
    · rw [suspend_waiting, ← List.cons_append]
      exact List.forall_mem_append.mpr ⟨sound, fun x hx => ⟨inv.itemArgs x hx, inv.itemPosts x hx⟩⟩
    · rw [suspend_waiting, ← List.map_cons, ← List.cons_append, List.map_append]
      simpa using series_ready
  · exact inv.keep ⟨rfl, rfl, rfl, rfl, rfl, rfl⟩ trivial

theorem applyEvent_txnInv {e : Event} {s t : State} (h : applyEvent e s = .next t) (mode : s.ModeInv) (inv : s.TxnInv) :
    t.TxnInv := by
  cases e with
  | device l low => injection h with h; subst h; apply inv.same <;> simp
  | time d => injection h with h; subst h; exact inv.same rfl rfl rfl rfl rfl rfl
  | engine => exact engineStep_txnInv h mode inv
  | handler c => exact handlerStep_txnInv h inv
  | caller r => exact requestStep_txnInv h inv
  | readSnapshot => rw [readSnapshot_next h]; exact inv

end Sys2Proof.Machine
end

section
/-! PROOFS. The lines and the registers of a synchronous read (R158-R163) over the engine's step at each of its positions. -/

namespace Sys2Proof.Machine

/-! ## The registers of a read -/

theorem State.ReadingInv.of_rb {s t : State} {p : ReadPos} (inv : s.ReadingInv p) (h : t.rb = s.rb) : t.ReadingInv p := by
  obtain ⟨beyond, parity⟩ := inv
  rw [← h] at beyond parity
  exact ⟨beyond, parity⟩

theorem readingInv_first (s : State) : s.ReadingInv ReadPos.first := ⟨fun h => absurd rfl h, fun h => absurd rfl h⟩

/-- Between two samples the registers stay as they are. -/
theorem State.ReadingInv.move {s t : State} {p q : ReadPos} (inv : s.ReadingInv p) (begun : p ≠ ReadPos.first)
    (h : t.rb = s.rb) (sampled : q.sampled = p.sampled) : t.ReadingInv q := by
  refine ⟨fun _ => ?_, fun _ => ?_⟩ <;> rw [h, sampled]
  · exact inv.zeroBeyond begun
  · exact inv.parity begun

/-- What the sample at frame position `k` writes of the registers (R158-R161). -/
theorem readSample_rb (k : Nat) (s : State) :
    (readSample k s).rb =
      { bit := sampleLevel .data s
        byte := if 1 ≤ k ∧ k ≤ 8 then putBit s.rb.byte (k - 1) (sampleLevel .data s) else s.rb.byte
        parity := if 1 ≤ k ∧ k ≤ 9 then s.rb.parity ^^ sampleLevel .data s else s.rb.parity } := by
  unfold readSample readBit
  split
  · next start => simp [start]
  split
  · next payload => rw [if_pos (by omega), if_pos (by omega)]
  split
  · next parity => simp [parity]
  · rw [check_rb, if_neg (by omega), if_neg (by omega)]

/-- A sample adds its bit to the byte and to the parity, position by position (R159, R160). -/
theorem readSample_readingInv {s : State} {k : Fin 11} (inv : s.ReadingInv (.sample k)) :
    (readSample k.val s).ReadingInv (.waitHigh k .enter) := by
  have begun : ReadPos.sample k ≠ ReadPos.first := nofun
  have beyond : s.rb.byte >>> (k.val - 1) = 0#8 := inv.zeroBeyond begun
  have parity : k.val ≤ 9 → s.rb.parity = byteParity s.rb.byte := inv.parity begun
  obtain start | payload | after : k.val = 0 ∨ (1 ≤ k.val ∧ k.val ≤ 8) ∨ 9 ≤ k.val := by omega
  · rw [start] at beyond
    constructor <;> intro _ <;> rw [readSample_rb, if_neg (by omega)]
    · simpa [start, ReadPos.sampled] using beyond
    · intro _
      rw [if_neg (by omega), parity (by omega)]
  · obtain ⟨beyond', parity'⟩ := putBit_shift (sampleLevel .data s) (by omega) beyond
    rw [Nat.sub_add_cancel payload.1] at beyond'
    constructor <;> intro _ <;> rw [readSample_rb, if_pos payload]
    · exact beyond'
    · intro _
      rw [if_pos (by omega), parity', parity (by omega)]
  · constructor <;> intro _ <;> rw [readSample_rb, if_neg (by omega)]
    · exact BitVec.ushiftRight_eq_zero (Nat.le_of_succ_le after)
    · exact fun h => absurd h (by simp [ReadPos.sampled]; omega)

/-- The first wait of a read starts the registers, the others leave them (R158). -/
theorem waitLow_readingInv {s : State} {k : Fin 11} (inv : s.ReadingInv (.waitLow k .enter)) :
    (readEffect (.waitLow k .enter) s).ReadingInv (.waitLow k .poll) := by
  by_cases start : k.val = 0
  · have rb : (readEffect (.waitLow k .enter) s).rb = { s.rb with byte := 0x00#8, parity := false } := by
      simp [readEffect, start, readStart]
    constructor <;> intro _ <;> rw [rb]
    · exact BitVec.zero_ushiftRight
    · exact fun _ => (by decide : false = byteParity 0x00#8)
  · refine inv.move (fun first => start ?_) (by simp [readEffect, start]) rfl
    injection first with first
    rw [first]
    rfl

theorem readEffect_readingInv {s : State} {p q : ReadPos} (inv : s.ReadingInv p) (next : p.next = some q) :
    (readEffect p s).ReadingInv q := by
  cases p with
  | waitLow k w =>
    cases w <;> injection next with next <;> subst next
    · exact waitLow_readingInv inv
    · exact inv.move nofun (waitPoll_rb _ _) rfl
  | sample k =>
    injection next with next
    subst next
    exact readSample_readingInv inv
  | waitHigh k w =>
    cases w with
    | enter =>
      injection next with next
      subst next
      exact inv.move nofun rfl rfl
    | poll =>
      rw [ReadPos.next] at next
      split at next <;> injection next with next <;> subst next
      · exact inv.move nofun (waitPoll_rb _ _) rfl
      · exact inv.move nofun (waitPoll_rb _ _) (by simp [ReadPos.sampled]; omega)
  | pulseLow =>
    injection next with next
    subst next
    exact inv.move nofun rfl rfl
  | pulseHold w =>
    cases w <;> injection next with next <;> subst next
    · exact inv.move nofun rfl rfl
    · exact inv.move nofun rfl rfl
  | pulseRel => cases next

/-! ## The lines during a read (R163) -/

theorem readEffect_clkPad {s : State} {p q : ReadPos} (clk : ∀ m, p.clkPad = some m → s.clkPad = m)
    (next : p.next = some q) : ∀ m, q.clkPad = some m → (readEffect p s).clkPad = m := by
  intro m hm
  cases p with
  | waitLow k w =>
    cases w <;> cases next <;> cases hm
    · rfl
    · exact (waitPoll_clkPad _ _).trans (clk _ rfl)
  | sample k =>
    cases next
    cases hm
    exact (readSample_clkPad _ _).trans (clk _ rfl)
  | waitHigh k w =>
    cases w with
    | enter =>
      cases next
      cases hm
      rfl
    | poll =>
      rw [ReadPos.next] at next
      split at next <;> cases next <;> cases hm
      exact (waitPoll_clkPad _ _).trans (clk _ rfl)
  | pulseLow =>
    cases next
    cases hm
    rfl
  | pulseHold w =>
    cases w <;> cases next <;> cases hm
    · exact clk _ rfl
    · exact clk _ rfl
  | pulseRel => cases next

@[simp] theorem readSample_dataPad (k : Nat) (s : State) : (readSample k s).dataPad = .inFloat := by
  simp [readSample]

/-- A read leaves `DATA` to the device (R158, R102). -/
theorem readEffect_dataPad {s : State} (p : ReadPos) (data : s.dataPad = .inFloat) : (readEffect p s).dataPad = .inFloat := by
  rcases p with ⟨k, _ | _⟩ | k | ⟨k, _ | _⟩ | _ | ⟨_ | _⟩ | _ <;>
    simp [readEffect, data, readStart, apply_ite]

/-- A read position that is not left changes neither lines nor registers (R105, R107). -/
theorem readEffect_stays {s : State} {p : ReadPos} (stays : readDone p s = false) :
    (readEffect p s).SamePads s ∧ (readEffect p s).rb = s.rb := by
  cases p with
  | waitLow k w | waitHigh k w =>
    cases w with
    | enter => cases stays
    | poll => exact ⟨⟨waitPoll_clkPad _ _, waitPoll_dataPad _ _⟩, waitPoll_rb _ _⟩
  | pulseHold w =>
    cases w with
    | enter => cases stays
    | poll => exact ⟨⟨rfl, rfl⟩, rfl⟩
  | _ => cases stays

end Sys2Proof.Machine
end

section
/-! PROOFS. The lines and the registers of a write (R150-R157) over the engine's step at each of its positions: `DATA` shows
the frame of the byte, position after position (R74). -/

namespace Sys2Proof.Machine

/-! ## The registers of a write -/

@[simp] theorem takeAck_byte (p : ReadPos) (s : State) : (takeAck p s).wb.byte = s.wb.byte := by
  unfold takeAck; split <;> rfl

@[simp] theorem takeAck_parity (p : ReadPos) (s : State) : (takeAck p s).wb.parity = s.wb.parity := by
  unfold takeAck; split <;> rfl

@[simp] theorem lineControl_wb (s : State) : (lineControl s).wb = { s.wb with lc := sampleLevel .data s } := by
  simp [lineControl]

@[simp] theorem lineControl_dataPad (s : State) : (lineControl s).dataPad = .inFloat := by
  simp [lineControl]

/-- A drive folds a data bit into the parity register, the parity bit and the stop bit not (R152-R154). -/
theorem writeBit_wb (i : Nat) (s : State) :
    (writeBit i s).wb = { s.wb with parity := if i ≤ 7 then s.wb.parity ^^ bitOf s.wb.byte i else s.wb.parity } := by
  unfold writeBit
  split
  · rfl
  · split <;> simp

/-- A drive puts its frame bit on `DATA`, given the byte and the parity of the data bits (R152-R154). -/
theorem writeBit_dataPad {s : State} {i : Nat} (hi : i ≤ 9) (parity : i = 8 → s.wb.parity = txParity s.wb.byte) :
    (writeBit i s).dataPad = padOfBit (frameBit s.wb.byte (i + 1)) := by
  unfold writeBit
  split
  · next payload =>
    rw [frameBit, if_neg (by omega), if_pos (by omega)]
    exact setData_dataPad _ _
  split
  · next atParity =>
    rw [frameBit, if_neg (by omega), if_neg (by omega), if_pos (by omega), setData_dataPad, parity atParity]
  · rw [frameBit, if_neg (by omega), if_neg (by omega), if_neg (by omega), setData_dataPad]

/-! ## From one position to the next -/

/-- A position that writes neither the registers nor `DATA`. -/
theorem State.WritingInv.move {b : Byte} {p q : WritePos} {s t : State} (inv : s.WritingInv b p) (begun : p ≠ .rtsClk)
    (wb : t.wb = s.wb) (dataPad : t.dataPad = s.dataPad) (folded : q.folded = p.folded)
    (data : q.dataPad b = p.dataPad b) (clk : ∀ m, q.clkPad = some m → t.clkPad = m) : t.WritingInv b q where
  byte _ := by rw [wb]; exact inv.byte begun
  parity _ := by rw [wb, folded]; exact inv.parity begun
  clk := clk
  data := by rw [data, dataPad]; exact inv.data

/-- A poll of `wait_clock`, whose successor finds the same pad of `CLK`, or whichever. -/
theorem State.WritingInv.poll {b : Byte} {p q : WritePos} {s : State} (inv : s.WritingInv b p) (begun : p ≠ .rtsClk)
    (t : Level) (folded : q.folded = p.folded) (data : q.dataPad b = p.dataPad b)
    (clk : q.clkPad = p.clkPad ∨ q.clkPad = none) : (waitPoll t s).WritingInv b q := by
  refine inv.move begun (waitPoll_wb _ _) (waitPoll_dataPad _ _) folded data fun m hm => ?_
  obtain clk | clk := clk <;> rw [clk] at hm
  · exact (waitPoll_clkPad _ _).trans (inv.clk m hm)
  · cases hm

/-- The `i`-th drive (R152-R154): a data bit goes to the line and into the parity register, the parity bit and the stop bit to
the line alone. -/
theorem writeBit_writingInv {b : Byte} {i : Fin 10} {s : State} (inv : s.WritingInv b (.bitDrive i)) :
    (writeBit i.val s).WritingInv b (.bitWaitHigh i .enter) := by
  have byte : s.wb.byte = b := inv.byte nofun
  have parity : s.wb.parity = (true ^^ prefixParity b (min i.val 8)) := inv.parity nofun
  refine ⟨fun _ => ?_, fun _ => ?_, fun m hm => ?_, fun m hm => ?_⟩
  · simp [writeBit_wb, byte]
  · rw [writeBit_wb]
    dsimp only [WritePos.folded]
    split
    · next payload =>
      rw [parity, byte, Nat.min_eq_left (by omega), Nat.min_eq_left (by omega), prefixParity, Bool.xor_assoc]
    · next beyond =>
      rw [parity, Nat.min_eq_right (by omega), Nat.min_eq_right (by omega)]
  · rw [writeBit_clkPad]
    exact inv.clk m hm
  · injection hm with hm
    rw [← hm, ← byte]
    refine writeBit_dataPad (by omega) fun at8 => ?_
    rw [parity, at8, byte]
    rfl

/-- The line-control sample leaves `DATA` to the device from then on (R155). -/
theorem lineControl_writingInv {b : Byte} {s : State} (inv : s.WritingInv b .lcSample) :
    (lineControl s).WritingInv b (.lcWaitHigh .enter) where
  byte _ := by rw [lineControl_wb]; exact inv.byte nofun
  parity _ := by rw [lineControl_wb]; exact inv.parity nofun
  clk := by rw [lineControl_clkPad]; exact inv.clk
  data m hm := by cases hm; exact lineControl_dataPad s

theorem eq_pulseRel_of_returns {p : ReadPos} (returns : p.next = none) : p = .pulseRel := by
  refine Classical.byContradiction fun before => ?_
  obtain ⟨q, next⟩ := next_of_ne_pulseRel before
  rw [returns] at next
  cases next

/-- The acknowledgement's read leaves the write's registers and `DATA` alone (R156). -/
theorem ack_writingInv {b : Byte} {p : ReadPos} {q : WritePos} {s : State} (inv : s.WritingInv b (.ack p))
    (next : (WritePos.ack p).next = some q) : (takeAck p (readEffect p s)).WritingInv b q := by
  have data : (readEffect p s).dataPad = .inFloat := readEffect_dataPad p (inv.data _ rfl)
  rw [next_ack] at next
  injection next with next
  subst next
  refine ⟨fun _ => ?_, fun _ => ?_, fun m hm => ?_, fun m hm => ?_⟩
  · simpa using inv.byte nofun
  · have parity : s.wb.parity = (true ^^ prefixParity b 8) := inv.parity nofun
    rw [takeAck_parity, readEffect_wb, parity]
    cases p.next <;> rfl
  · rw [takeAck_clkPad]
    cases hq : p.next with
    | none =>
      rw [hq] at hm
      cases hm
      rw [eq_pulseRel_of_returns hq]
      rfl
    | some q =>
      rw [hq] at hm
      exact readEffect_clkPad inv.clk hq m hm
  · rw [takeAck_dataPad, data]
    cases hq : p.next <;> rw [hq] at hm <;> injection hm

theorem writeEffect_writingInv {b : Byte} {p q : WritePos} {s : State} (inv : s.WritingInv b p) (next : p.next = some q) :
    (writeEffect b p s).WritingInv b q := by
  cases p with
  | rtsClk =>
    cases next
    exact ⟨fun _ => rfl, fun _ => rfl, fun m hm => by cases hm; rfl, nofun⟩
  | rtsHold w =>
    cases w <;> cases next
    · exact inv.move nofun rfl rfl rfl rfl inv.clk
    · exact inv.move nofun rfl rfl rfl rfl inv.clk
  | rtsData =>
    cases next
    exact ⟨fun _ => inv.byte nofun, fun _ => inv.parity nofun, inv.clk, fun m hm => by cases hm; rfl⟩
  | rtsRel =>
    cases next
    exact inv.move nofun rfl rfl rfl rfl nofun
  | bitWaitLow i w =>
    cases w <;> cases next
    · exact inv.move nofun rfl rfl rfl rfl fun m hm => by cases hm; rfl
    · exact inv.poll nofun _ rfl rfl (.inl rfl)
  | bitDrive i =>
    cases next
    exact writeBit_writingInv inv
  | bitWaitHigh i w =>
    cases w with
    | enter =>
      cases next
      exact inv.move nofun rfl rfl rfl rfl fun m hm => by cases hm; rfl
    | poll =>
      rw [WritePos.next] at next
      split at next <;> cases next
      · exact inv.poll nofun _ rfl rfl (.inr rfl)
      · next last =>
        have last : i.val = 9 := by omega
        exact inv.poll nofun _ (by simp [WritePos.folded, last]) (by simp [WritePos.dataPad, last]) (.inr rfl)
  | lcWaitLow w =>
    cases w <;> cases next
    · exact inv.move nofun rfl rfl rfl rfl fun m hm => by cases hm; rfl
    · exact inv.poll nofun _ rfl rfl (.inl rfl)
  | lcSample =>
    cases next
    exact lineControl_writingInv inv
  | lcWaitHigh w =>
    cases w <;> cases next
    · exact inv.move nofun rfl rfl rfl rfl fun m hm => by cases hm; rfl
    · exact inv.poll nofun _ rfl rfl (.inr rfl)
  | ack p => exact ack_writingInv inv next
  | check => cases next

end Sys2Proof.Machine
end

section
/-! PROOFS. The lines and the registers during a transaction (R157, R163, R169) over every step of the machine, and with them the
whole invariant of the block. -/

namespace Sys2Proof.Machine

/-! ## What leaves them alone -/

theorem State.WritingInv.same {b : Byte} {p : WritePos} {s t : State} (inv : s.WritingInv b p) (wb : t.wb = s.wb)
    (pads : t.SamePads s) : t.WritingInv b p where
  byte := by rw [wb]; exact inv.byte
  parity := by rw [wb]; exact inv.parity
  clk := by rw [pads.clkPad]; exact inv.clk
  data := by rw [pads.dataPad]; exact inv.data

theorem writing_congr {s t : State} (seq : t.seq = s.seq) (desc : t.txn.desc = s.txn.desc)
    (args : t.txn.args = s.txn.args) : t.writing = s.writing := by
  unfold State.writing
  rw [seq, desc, args]

theorem reading_congr {s t : State} (seq : t.seq = s.seq) : t.reading = s.reading := by
  unfold State.reading
  rw [seq]

/-- A step that writes neither the position nor what a write sends, nor a pad or a register. -/
theorem State.WireInv.same {s t : State} (inv : s.WireInv) (seq : t.seq = s.seq) (desc : t.txn.desc = s.txn.desc)
    (args : t.txn.args = s.txn.args) (wb : t.wb = s.wb) (rb : t.rb = s.rb) (pads : t.SamePads s) : t.WireInv where
  writing b p h := (inv.writing b p (by rwa [writing_congr seq desc args] at h)).same wb pads
  reading p h := (inv.reading p (by rwa [reading_congr seq] at h)).of_rb rb
  response := by rw [seq, pads.clkPad, pads.dataPad]; exact inv.response
  atEnd := by rw [seq, pads.clkPad, pads.dataPad]; exact inv.atEnd

/-! ## The write and the read in progress -/

/-- The position of `write_byte` at which a position of the sequencer stands. -/
def Seq.write : Seq → Option WritePos
  | .ctOpcode p | .ctArg _ p => some p
  | _ => none

theorem write_cases {q : Seq} {p : WritePos} (h : q.write = some p) : q = .ctOpcode p ∨ ∃ i, q = .ctArg i p := by
  cases q with
  | ctOpcode p => cases h; exact .inl rfl
  | ctArg i p => cases h; exact .inr ⟨i, rfl⟩
  | _ => cases h

theorem reading_of_write {s : State} {p : WritePos} (h : s.seq.write = some p) : s.reading = p.read := by
  obtain hq | ⟨i, hq⟩ := write_cases h
  · exact reading_ctOpcode hq
  · exact reading_ctArg hq

theorem writing_ctOpcode {s : State} {p : WritePos} (hq : s.seq = .ctOpcode p) :
    s.writing = some (opcodeByte s.txn.desc, p) := by
  rw [State.writing, hq]

theorem writing_ctArg {s : State} {i : Nat} {p : WritePos} (hq : s.seq = .ctArg i p) :
    s.writing = s.txn.args[i]?.map fun b => (b, p) := by
  rw [State.writing, hq]

/-- A write in progress sends the opcode or an argument (R165). -/
theorem writing_cases {s : State} {b : Byte} {p : WritePos} (h : s.writing = some (b, p)) :
    (s.seq = .ctOpcode p ∧ opcodeByte s.txn.desc = b) ∨ ∃ i, s.seq = .ctArg i p ∧ s.txn.args[i]? = some b := by
  cases hq : s.seq with
  | ctOpcode q =>
    rw [writing_ctOpcode hq] at h
    obtain ⟨rfl, rfl⟩ := Prod.mk.inj (Option.some.inj h)
    exact .inl ⟨rfl, rfl⟩
  | ctArg i q =>
    rw [writing_ctArg hq] at h
    obtain ⟨c, hc, h⟩ := Option.map_eq_some_iff.mp h
    obtain ⟨rfl, rfl⟩ := Prod.mk.inj h
    exact .inr ⟨i, rfl, hc⟩
  | _ => rw [State.writing, hq] at h; cases h

theorem write_of_writing {s : State} {b : Byte} {p : WritePos} (h : s.writing = some (b, p)) : s.seq.write = some p := by
  obtain ⟨hq, -⟩ | ⟨i, hq, -⟩ := writing_cases h <;> rw [hq] <;> rfl

theorem reading_inTransaction {s : State} {p : ReadPos} (h : s.reading = some p) : s.seq.inTransaction = true := by
  cases hq : s.seq with
  | idle => rw [State.reading, hq] at h; cases h
  | ctBegin => rw [State.reading, hq] at h; cases h
  | _ => rfl

/-! ## The invariant by position -/

/-- Outside a transaction it says nothing. -/
theorem wireInv_of_outside {t : State} (h : t.seq.inTransaction = false) : t.WireInv where
  writing b p hw := by obtain ⟨hq, -⟩ | ⟨i, hq, -⟩ := writing_cases hw <;> rw [hq] at h <;> cases h
  reading p hr := by rw [reading_inTransaction hr] at h; cases h
  response j p hq := by rw [hq] at h; cases h
  atEnd hq := by rw [hq] at h; cases h

/-- Within a write it is the write's invariant, and that of the acknowledgement's read. -/
theorem wireInv_of_write {t : State} {p : WritePos} (h : t.seq.write = some p)
    (write : ∀ b, t.writing = some (b, p) → t.WritingInv b p) (read : ∀ r, p.read = some r → t.ReadingInv r) :
    t.WireInv where
  writing b q hw := by
    obtain rfl : p = q := Option.some.inj (h.symm.trans (write_of_writing hw))
    exact write b hw
  reading r hr := read r ((reading_of_write h).symm.trans hr)
  response j r hq := by rw [hq] at h; cases h
  atEnd hq := by rw [hq] at h; cases h

/-- At the first position of a write nothing has been written yet. -/
theorem wireInv_of_rtsClk {t : State} (h : t.seq.write = some .rtsClk) : t.WireInv :=
  wireInv_of_write h (fun _ _ => ⟨fun h => absurd rfl h, fun h => absurd rfl h, nofun, nofun⟩) nofun

theorem wireInv_of_response {t : State} {j : Nat} {p : ReadPos} (h : t.seq = .ctResp j p) (read : t.ReadingInv p)
    (data : t.dataPad = .inFloat) (clk : ∀ m, p.clkPad = some m → t.clkPad = m) : t.WireInv where
  writing b q hw := by rw [State.writing, h] at hw; cases hw
  reading q hq := by rw [reading_ctResp h] at hq; injection hq with hq; exact hq ▸ read
  response j' q hq := by
    rw [h] at hq
    injection hq with _ hq
    exact hq ▸ ⟨data, clk⟩
  atEnd hq := by rw [h] at hq; cases hq

theorem wireInv_at_ctEnd {t : State} (h : t.seq = .ctEnd) (clk : t.clkPad = .inPullup) (data : t.dataPad = .inFloat) :
    t.WireInv where
  writing b p hw := by rw [State.writing, h] at hw; cases hw
  reading p hr := by rw [State.reading, h] at hr; cases hr
  response j p hq := by rw [h] at hq; cases hq
  atEnd _ := ⟨clk, data⟩

/-- After the writes and between the reads the lines are the device's (R162, R168). -/
theorem wireInv_of_afterReads {t : State} {nRecv j : Nat} (h : t.seq = Seq.afterReads nRecv j)
    (clk : t.clkPad = .inPullup) (data : t.dataPad = .inFloat) : t.WireInv := by
  unfold Seq.afterReads at h
  split at h
  · exact wireInv_of_response h (readingInv_first t) data nofun
  · exact wireInv_at_ctEnd h clk data

theorem wireInv_of_afterWrites {t : State} {nSend nRecv i : Nat} (h : t.seq = Seq.afterWrites nSend nRecv i)
    (clk : t.clkPad = .inPullup) (data : t.dataPad = .inFloat) : t.WireInv := by
  unfold Seq.afterWrites at h
  split at h
  · exact wireInv_of_rtsClk (by rw [h]; rfl)
  · exact wireInv_of_afterReads h clk data

/-! ## The engine's step within a write -/

/-- The successor of a position of a write is in the same write, or the write returns (R157). -/
theorem writing_next {s t : State} {b : Byte} {p q : WritePos} (h : s.writing = some (b, p)) (next : p.next = some q)
    {nSend nRecv : Nat} (seq : t.seq = s.seq.next nSend nRecv) (desc : t.txn.desc = s.txn.desc)
    (args : t.txn.args = s.txn.args) : t.writing = some (b, q) := by
  obtain ⟨hq, byte⟩ | ⟨i, hq, byte⟩ := writing_cases h
  · rw [hq, next_ctOpcode, next] at seq
    rw [writing_ctOpcode seq, desc, byte]
  · rw [hq, next_ctArg, next] at seq
    rw [writing_ctArg seq, args, byte]
    rfl

theorem next_of_returns {q : Seq} {p : WritePos} (h : q.write = some p) (returns : p.next = none) (nSend nRecv : Nat) :
    ∃ i, q.next nSend nRecv = Seq.afterWrites nSend nRecv i := by
  obtain rfl | ⟨i, rfl⟩ := write_cases h
  · exact ⟨0, by rw [next_ctOpcode, returns]; rfl⟩
  · exact ⟨i + 1, by rw [next_ctArg, returns]; rfl⟩

/-- A write returns at `WB_CHECK` alone (R157). -/
theorem eq_check_of_returns {p : WritePos} (returns : p.next = none) : p = .check := by
  cases p with
  | rtsHold w | bitWaitLow i w | lcWaitLow w | lcWaitHigh w => cases w <;> cases returns
  | bitWaitHigh i w =>
    cases w with
    | enter => cases returns
    | poll =>
      rw [WritePos.next] at returns
      split at returns <;> cases returns
  | ack p => rw [next_ack] at returns; cases returns
  | check => rfl
  | _ => cases returns

/-- A position of a write that is not left changes neither lines nor registers (R105, R107). -/
theorem writeEffect_stays {b : Byte} {p : WritePos} {s : State} (stays : writeDone p s = false) :
    (writeEffect b p s).SamePads s ∧ (writeEffect b p s).wb = s.wb ∧ (writeEffect b p s).rb = s.rb := by
  cases p with
  | bitWaitLow i w | bitWaitHigh i w | lcWaitLow w | lcWaitHigh w =>
    cases w with
    | enter => cases stays
    | poll => exact ⟨⟨waitPoll_clkPad _ _, waitPoll_dataPad _ _⟩, waitPoll_wb _ _, waitPoll_rb _ _⟩
  | rtsHold w =>
    cases w with
    | enter => cases stays
    | poll => exact ⟨⟨rfl, rfl⟩, rfl, rfl⟩
  | ack p =>
    have stays : readDone p s = false := stays
    obtain ⟨pads, rb⟩ := readEffect_stays stays
    have before : p ≠ .pulseRel := by
      rintro rfl
      cases stays
    rw [writeEffect, takeAck_of_ne before]
    exact ⟨pads, readEffect_wb p s, rb⟩
  | _ => cases stays

/-- The acknowledgement's read begins after the line control, and goes on position by position (R156). -/
theorem writeEffect_readingInv {b : Byte} {p q : WritePos} {r : ReadPos} {s : State}
    (inv : ∀ r, p.read = some r → s.ReadingInv r) (next : p.next = some q) (hr : q.read = some r) :
    (writeEffect b p s).ReadingInv r := by
  cases p with
  | ack p =>
    rw [next_ack] at next
    injection next with next
    subst next
    cases hp : p.next with
    | none => rw [hp] at hr; cases hr
    | some p' =>
      rw [hp] at hr
      injection hr with hr
      subst hr
      exact (readEffect_readingInv (inv p rfl) hp).of_rb (takeAck_rb p _)
  | lcWaitHigh w =>
    cases w <;> cases next <;> cases hr
    exact readingInv_first _
  | rtsHold w | bitWaitLow i w | lcWaitLow w => cases w <;> cases next <;> cases hr
  | bitWaitHigh i w =>
    cases w with
    | enter => cases next; cases hr
    | poll =>
      rw [WritePos.next] at next
      split at next <;> cases next <;> cases hr
  | _ => cases next <;> cases hr

theorem advance_samePads (done : Bool) (s : State) : (advance done s).SamePads s :=
  ⟨advance_clkPad done s, advance_dataPad done s⟩

theorem write_wireInv {s : State} {b : Byte} {p : WritePos} (inv : s.WireInv) (h : s.writing = some (b, p)) :
    (advance (writeDone p s) (writeEffect b p s)).WireInv := by
  have write := inv.writing b p h
  have read (r : ReadPos) (hr : p.read = some r) : s.ReadingInv r :=
    inv.reading r ((reading_of_write (write_of_writing h)).trans hr)
  cases done : writeDone p s with
  | false =>
    obtain ⟨pads, wb, rb⟩ := writeEffect_stays (b := b) done
    exact inv.same (writeEffect_seq b p s) (writeEffect_desc b p s) (writeEffect_args b p s) wb rb pads
  | true =>
    have seq : (advance true (writeEffect b p s)).seq = s.seq.next (sendCount s.txn.desc) (recvCount s.txn.desc) := by
      rw [advance_seq, if_pos rfl, writeEffect_seq, writeEffect_desc]
    cases next : p.next with
    | some q =>
      have writing := writing_next h next seq (by simp) (by simp)
      refine wireInv_of_write (write_of_writing writing) (fun b' hb => ?_) fun r hr => ?_
      · obtain ⟨rfl, -⟩ := Prod.mk.inj (Option.some.inj (writing.symm.trans hb))
        exact (writeEffect_writingInv write next).same (advance_wb _ _) (advance_samePads _ _)
      · exact (writeEffect_readingInv read next hr).of_rb (advance_rb _ _)
    | none =>
      obtain ⟨i, after⟩ := next_of_returns (write_of_writing h) next (sendCount s.txn.desc) (recvCount s.txn.desc)
      obtain rfl := eq_check_of_returns next
      refine wireInv_of_afterWrites (seq.trans after) ?_ ?_
      · rw [advance_clkPad, writeEffect, writeCheck_clkPad]
        exact write.clk _ rfl
      · rw [advance_dataPad, writeEffect, writeCheck_dataPad]
        exact write.data _ rfl

/-! ## The engine's step within a response -/

theorem response_wireInv {s : State} {j : Nat} {p : ReadPos} (inv : s.WireInv) (hs : s.seq = .ctResp j p) :
    (advance (readDone p s) (takeResponse p (readEffect p s))).WireInv := by
  obtain ⟨data, clk⟩ := inv.response j p hs
  have read : s.ReadingInv p := inv.reading p (reading_ctResp hs)
  have data' : (readEffect p s).dataPad = .inFloat := readEffect_dataPad p data
  cases done : readDone p s with
  | false =>
    obtain ⟨pads, rb⟩ := readEffect_stays done
    refine inv.same (by simp [advance_seq]) ?_ ?_ ?_ ?_ ⟨?_, ?_⟩ <;> simp [rb, pads.clkPad, pads.dataPad]
  | true =>
    have seq : (advance true (takeResponse p (readEffect p s))).seq =
        p.next.elim (Seq.afterReads (recvCount s.txn.desc) (j + 1)) (.ctResp j) := by
      simp [advance_seq, hs, next_ctResp]
    cases next : p.next with
    | some q =>
      rw [next] at seq
      refine wireInv_of_response seq ((readEffect_readingInv read next).of_rb (by simp)) (by simpa using data') ?_
      simpa using readEffect_clkPad clk next
    | none =>
      rw [next] at seq
      obtain rfl := eq_pulseRel_of_returns next
      exact wireInv_of_afterReads seq rfl (by simpa using data')

/-! ## Every agent's step -/

theorem engineStep_wireInv {s t : State} (h : engineStep s = .next t) (inv : s.WireInv) : t.WireInv := by
  obtain ⟨-, -, rfl⟩ | ⟨hs, -, rfl⟩ | ⟨hs, -, rfl⟩ | ⟨it, rest, hs, hr, rfl⟩ | ⟨p, hs, rfl⟩ | ⟨i, p, b, hs, hb, rfl⟩ |
    ⟨j, p, hs, rfl⟩ | ⟨hs, hc⟩ := engineStep_cases h
  · exact inv
  · exact wireInv_of_outside rfl
  · exact wireInv_of_outside rfl
  · exact wireInv_of_rtsClk rfl
  · exact write_wireInv inv (writing_ctOpcode hs)
  · exact write_wireInv inv (by rw [writing_ctArg hs, hb]; rfl)
  · exact response_wireInv inv hs
  · obtain ⟨syn, -, rfl⟩ := ctEnd_cases hc
    exact wireInv_of_outside (by simp [Seq.inTransaction])

/-- The handler touches neither lines nor registers of a transaction: it does not run in one (R62). -/
theorem handlerStep_wireInv {c : Option Request} {s t : State} (h : handlerStep c s = .next t) (mode : s.ModeInv)
    (inv : s.WireInv) : t.WireInv := by
  cases enabled : s.handlerEnabled with
  | false =>
    rw [handlerStep_disabled enabled] at h
    injection h with h
    exact h ▸ inv
  | true =>
    refine wireInv_of_outside ?_
    rw [(handlerStep_keepsModes h mode).side, ← mode.txnSeq]
    exact mode.free_of_enabled enabled

theorem requestStep_wireInv {r : Request} {s t : State} (h : requestStep r s = .next t) : t.WireInv := by
  obtain ⟨i, it, rest, -, -, -, rfl⟩ | ⟨c, d, k, -, -, -, rfl⟩ := requestStep_cases h
  · exact wireInv_of_rtsClk rfl
  · exact wireInv_of_outside rfl

theorem applyEvent_wireInv {e : Event} {s t : State} (h : applyEvent e s = .next t) (mode : s.ModeInv) (inv : s.WireInv) :
    t.WireInv := by
  cases e with
  | device l low => injection h with h; subst h; refine inv.same ?_ ?_ ?_ ?_ ?_ ⟨?_, ?_⟩ <;> simp
  | time d => injection h with h; subst h; exact inv.same rfl rfl rfl rfl rfl ⟨rfl, rfl⟩
  | engine => exact engineStep_wireInv h inv
  | handler c => exact handlerStep_wireInv h mode inv
  | caller r => exact requestStep_wireInv h
  | readSnapshot => rw [readSnapshot_next h]; exact inv

/-! ## Time (R36) -/

/-- A wait or a hold that is entered notes the present time (R105, R107). -/
theorem readEffect_waitT0 {s : State} (h : s.waitT0 ≤ s.now) (p : ReadPos) : (readEffect p s).waitT0 ≤ s.now := by
  rcases p with ⟨k, _ | _⟩ | k | ⟨k, _ | _⟩ | _ | ⟨_ | _⟩ | _ <;>
    simp [readEffect, h, readStart, apply_ite]

theorem writeEffect_waitT0 {s : State} (h : s.waitT0 ≤ s.now) (b : Byte) (p : WritePos) :
    (writeEffect b p s).waitT0 ≤ s.now := by
  rcases p with _ | ⟨_ | _⟩ | _ | _ | ⟨i, _ | _⟩ | i | ⟨i, _ | _⟩ | ⟨_ | _⟩ | _ | ⟨_ | _⟩ | q | _ <;>
    simp [writeEffect, writeStart, h, readEffect_waitT0]

theorem applyEvent_time {e : Event} {s t : State} (h : applyEvent e s = .next t) (time : s.waitT0 ≤ s.now) :
    t.waitT0 ≤ t.now := by
  cases e with
  | device l low => injection h with h; subst h; simpa using time
  | time d => injection h with h; subst h; exact Nat.le_add_right_of_le time
  | engine =>
    obtain ⟨-, -, rfl⟩ | ⟨-, -, rfl⟩ | ⟨-, -, rfl⟩ | ⟨it, rest, -, -, rfl⟩ | ⟨p, -, rfl⟩ | ⟨i, p, b, -, -, rfl⟩ |
      ⟨j, p, -, rfl⟩ | ⟨-, hc⟩ := engineStep_cases h
    · exact time
    · exact time
    · exact time
    · exact time
    · simpa using writeEffect_waitT0 time _ p
    · simpa using writeEffect_waitT0 time b p
    · simpa using readEffect_waitT0 time p
    · obtain ⟨syn, -, rfl⟩ := ctEnd_cases hc
      simpa using time
  | handler c =>
    obtain ⟨-, rfl⟩ | ⟨-, -, rfl⟩ | ⟨-, -, u, hu, rfl⟩ := handlerStep_cases h
    · exact time
    · simpa using time
    · obtain ⟨-, rfl⟩ | ⟨-, -, rfl⟩ | ⟨-, rfl⟩ | ⟨-, -, rfl⟩ := consumeBit_cases hu <;> simpa using time
  | caller r =>
    obtain ⟨i, it, rest, -, -, -, rfl⟩ | ⟨c, d, k, -, -, -, rfl⟩ := requestStep_cases h <;> simpa using time
  | readSnapshot => rw [readSnapshot_next h]; exact time

/-! ## The whole invariant -/

theorem applyEvent_inv {e : Event} {s t : State} (h : applyEvent e s = .next t) (inv : s.Inv) : t.Inv where
  frame := applyEvent_frameInv h inv.frame
  mode := applyEvent_modeInv h inv.mode
  txn := applyEvent_txnInv h inv.mode inv.txn
  wire := applyEvent_wireInv h inv.mode inv.wire
  time := applyEvent_time h inv.time
  pulse := by rw [applyEvent_cfg h]; exact inv.pulse

/-- The invariant does not look at the model's own fields, and only the modes look at a pending edge. -/
theorem State.Inv.of_modeInv {s : State} (inv : s.Inv) {pending : Bool} {draws : Nat} {inputs : List Event} {choices : Nat}
    (mode : { s with edgePending := pending, draws := draws, inputs := inputs, choices := choices }.ModeInv) :
    { s with edgePending := pending, draws := draws, inputs := inputs, choices := choices }.Inv where
  frame := inv.frame.of_frame rfl
  mode := mode
  txn := inv.txn.same rfl rfl rfl rfl rfl rfl
  wire := inv.wire.same rfl rfl rfl rfl rfl ⟨rfl, rfl⟩
  time := inv.time
  pulse := inv.pulse

/-- Settles O52, invariant by invariant: each agent's step keeps each of them, and so does the edge detector's look. -/
theorem everyStepKeepsTheInvariant : Obligations.EveryStepKeepsTheInvariant := by
  unfold Obligations.EveryStepKeepsTheInvariant
  intro s t inv h
  have mode := step_modeInv h inv.mode
  obtain ⟨inputs, choices, u, hu, rfl⟩ := step_event h
  have before : { s with inputs := inputs, choices := choices }.Inv :=
    inv.of_modeInv (inv.mode.withEvents inputs choices)
  exact (applyEvent_inv hu before).of_modeInv mode

end Sys2Proof.Machine
end

section
/-! PROOFS. An asynchronous frame (R133, R287): the device's eleven bits, each consumed by one handler step, against the byte
they assemble and the reports of their checks (R241-R243). -/

namespace Sys2Proof.Machine

/-! ## What a consumed bit makes of the frame, the stream and the log -/

/-- What the handler writes of the state when it consumes a bit (R124-R127). -/
structure Reception where
  frame : Frame
  rxStream : List Byte
  diagLog : List DiagEvent

def State.reception (s : State) : Reception := ⟨s.frame, s.rxStream, s.diagLog⟩

/-- The report of an asynchronous check, if it fails (R247). -/
def reportUnless (passes : Bool) (e : ErrorName) (i : DiagInfo) : List DiagEvent :=
  if passes then [] else [{ error := e, context := .async, info := i }]

/-- The bit `d` consumed at a legal frame position. -/
def Reception.take (r : Reception) (d : Level) : Reception :=
  if r.frame.bitIndex = 0#4 then
    { r with frame := { r.frame with bitIndex := 1#4 }
             diagLog := r.diagLog ++ reportUnless (startOk d) .startBitError (.bit true) }
  else if r.frame.bitIndex = 9#4 then
    { r with frame := { r.frame with bitIndex := 10#4, runningParity := r.frame.runningParity ^^ d }
             diagLog := r.diagLog ++
               reportUnless (parityOk (r.frame.runningParity ^^ d)) .parityError (.byte r.frame.accumulatedByte) }
  else if r.frame.bitIndex = 10#4 then
    { frame := Frame.idle
      rxStream := r.rxStream ++ [r.frame.accumulatedByte]
      diagLog := r.diagLog ++ reportUnless (stopOk d) .stopBitError (.byte r.frame.accumulatedByte) }
  else
    { r with frame :=
        { bitIndex := r.frame.bitIndex + 1#4
          accumulatedByte := putBit r.frame.accumulatedByte (r.frame.bitIndex.toNat - 1) d
          runningParity := r.frame.runningParity ^^ d } }

/-- Consuming a bit is that (R123-R127). -/
theorem consumeBit_take {s : State} (legal : s.frame.bitIndex.toNat ≤ 10) (d : Level) :
    consumeBit none d s = .next { s with
      frame := (s.reception.take d).frame
      rxStream := (s.reception.take d).rxStream
      diagLog := (s.reception.take d).diagLog } := by
  unfold Reception.take
  split
  · next start =>
    rw [consumeBit_start start]
    cases d <;> rfl
  split
  · next parity =>
    rw [consumeBit_parity parity]
    cases hp : s.frame.runningParity ^^ d <;> simp [State.reception, reportUnless, parityOk, hp]
  split
  · next stop =>
    rw [consumeBit_stop stop]
    cases d <;> rfl
  · next notStart notParity notStop =>
    have payload : 1 ≤ s.frame.bitIndex.toNat ∧ s.frame.bitIndex.toNat ≤ 8 := by
      simp only [State.reception, ← BitVec.toNat_inj, BitVec.toNat_ofNat] at notStart notParity notStop
      omega
    exact consumeBit_payload payload.1 payload.2 none d

theorem take_legal {r : Reception} (legal : r.frame.bitIndex.toNat ≤ 10) (d : Level) :
    (r.take d).frame.bitIndex.toNat ≤ 10 := by
  unfold Reception.take
  split
  · simp
  split
  · simp
  split
  · simp [Frame.idle]
  · next notStop =>
    simp only [← BitVec.toNat_inj, BitVec.toNat_ofNat] at notStop
    simp only [BitVec.toNat_add, BitVec.toNat_ofNat]
    omega

theorem take_of_payload {r : Reception} {n : Nat} (hn : n < 8) (position : r.frame.bitIndex = BitVec.ofNat 4 (n + 1))
    (d : Level) :
    r.take d = { r with frame :=
      ⟨BitVec.ofNat 4 (n + 2), putBit r.frame.accumulatedByte n d, r.frame.runningParity ^^ d⟩ } := by
  have value : r.frame.bitIndex.toNat = n + 1 := by
    rw [position, BitVec.toNat_ofNat, Nat.mod_eq_of_lt (by omega)]
  have elsewhere {k : Nat} (hk : k < 16) (ne : n + 1 ≠ k) : r.frame.bitIndex ≠ BitVec.ofNat 4 k := fun h =>
    ne (by rw [← value, h, BitVec.toNat_ofNat, Nat.mod_eq_of_lt hk])
  rw [Reception.take, if_neg (elsewhere (k := 0) (by omega) (by omega)), if_neg (elsewhere (k := 9) (by omega) (by omega)),
    if_neg (elsewhere (k := 10) (by omega) (by omega)), value, position, ← BitVec.ofNat_add, Nat.add_sub_cancel]

/-! ## A frame's bits one after another -/

/-- The first `n` payload bits of a frame assembled, LSB first (R125). -/
def bytePrefix (bits : List Level) (n : Nat) : Byte :=
  (List.range n).foldl (fun b k => putBit b k (bits.getD (k + 1) false)) 0#8

theorem bytePrefix_succ (bits : List Level) (n : Nat) :
    bytePrefix bits (n + 1) = putBit (bytePrefix bits n) n (bits.getD (n + 1) false) := by
  rw [bytePrefix, List.range_succ, List.foldl_append]
  rfl

theorem bytePrefix_shift (bits : List Level) {n : Nat} (hn : n ≤ 8) : bytePrefix bits n >>> n = 0#8 := by
  induction n with
  | zero => rfl
  | succ n ih =>
    rw [bytePrefix_succ]
    exact (putBit_shift _ (by omega) (ih (by omega))).1

theorem byteParity_bytePrefix_succ (bits : List Level) {n : Nat} (hn : n ≤ 7) :
    byteParity (bytePrefix bits (n + 1)) = (byteParity (bytePrefix bits n) ^^ bits.getD (n + 1) false) := by
  rw [bytePrefix_succ]
  exact (putBit_shift _ hn (bytePrefix_shift bits (by omega))).2

theorem take_succ_getD {bits : List Level} {n : Nat} (hn : n < bits.length) :
    bits.take (n + 1) = bits.take n ++ [bits.getD n false] := by
  rw [List.take_succ_eq_append_getElem hn, List.getD_eq_getElem?_getD,
    List.getElem?_eq_getElem hn, Option.getD_some]

/-- After the start bit and `n` payload bits the frame holds what they assemble, and its parity. -/
theorem take_payload {bits : List Level} (length : bits.length = 11) (rx : List Byte) (log : List DiagEvent) {n : Nat}
    (hn : n ≤ 8) :
    (bits.take (n + 1)).foldl Reception.take ⟨Frame.idle, rx, log⟩ =
      ⟨⟨BitVec.ofNat 4 (n + 1), bytePrefix bits n, byteParity (bytePrefix bits n)⟩, rx,
        log ++ reportUnless (startOk (bits.getD 0 false)) .startBitError (.bit true)⟩ := by
  induction n with
  | zero =>
    have noOnes : byteParity (bytePrefix bits 0) = false := (by decide : byteParity 0#8 = false)
    rw [take_succ_getD (by omega), List.take_zero, noOnes]
    rfl
  | succ n ih =>
    rw [take_succ_getD (by omega), List.foldl_append, ih (by omega), byteParity_bytePrefix_succ bits (by omega),
      bytePrefix_succ]
    exact take_of_payload hn rfl _

/-- Eleven bits from the idle frame on give their byte and their reports, and the frame is idle again (R133). -/
theorem take_frame {bits : List Level} (length : bits.length = 11) (rx : List Byte) (log : List DiagEvent) :
    bits.foldl Reception.take ⟨Frame.idle, rx, log⟩ =
      ⟨Frame.idle, rx ++ [byteOfBits bits], log ++ frameReports .async bits⟩ := by
  have whole : bits = bits.take 9 ++ [bits.getD 9 false] ++ [bits.getD 10 false] := by
    rw [← take_succ_getD (by omega), ← take_succ_getD (by omega), List.take_of_length_le (by omega)]
  calc bits.foldl Reception.take ⟨Frame.idle, rx, log⟩
      = (((bits.take 9).foldl Reception.take ⟨Frame.idle, rx, log⟩).take (bits.getD 9 false)).take (bits.getD 10 false) := by
        conv => lhs; rw [whole, List.foldl_append, List.foldl_append]
        rfl
    _ = ⟨Frame.idle, rx ++ [byteOfBits bits], log ++ frameReports .async bits⟩ := by
        rw [take_payload length rx log (Nat.le_refl 8), frameReports, ← List.append_assoc, ← List.append_assoc]
        rfl

/-! ## The events of one bit (R108, R120, R121) -/

/-- The receiver hears the device: configured, the gate open, the levels no draws, the frame legal. `low` is whether the
device pulls the clock low. -/
structure State.Listening (s : State) (low : Bool) : Prop where
  configured : s.configured = true
  gate : s.gate = true
  outside : s.inHandler = false
  pullup : s.cfg.extPullup = true
  clkPad : s.clkPad ≠ .driveLow
  clkDevLow : s.clkDevLow = low
  legal : s.frame.bitIndex.toNat ≤ 10

/-- The receiver between two bits: both pads float, and no edge is pending. -/
structure State.Resting (s : State) : Prop where
  clkPad : s.clkPad = .inFloat
  dataPad : s.dataPad = .inFloat
  noEdge : s.edgePending = false

theorem State.Listening.withInputs {s : State} {low : Bool} (h : s.Listening low) (l : List Event) :
    { s with inputs := l }.Listening low :=
  ⟨h.configured, h.gate, h.outside, h.pullup, h.clkPad, h.clkDevLow, h.legal⟩

/-- A clock that the device pulls low does not fall. -/
theorem latchEdge_of_low {s : State} (h : s.clkDevLow = true) (t : State) :
    (latchEdge s t).edgePending = t.edgePending := by
  rw [latchEdge_edgePending, clkFell, levelAt, levelWith_low (l := .clk) (.inr h)]
  simp

/-- A listening receiver latches the edge when the device pulls the clock low (R109, R120). -/
theorem latchEdge_of_pull {s t : State} (h : s.Listening false) (low : t.clkDevLow = true) (latches : t.latches = true) :
    (latchEdge s t).edgePending = true := by
  rw [latchEdge_edgePending, clkFell, levelAt, levelAt, levelWith_low (l := .clk) (s := t) (.inr low),
    levelWith_high (l := .clk) h.clkPad h.clkDevLow (.inr h.pullup), latches]
  simp

/-- The state after a step of the device. -/
def State.afterDevice (s : State) (l : Line) (low : Bool) : State :=
  latchEdge { s with inputs := [] } ({ s with inputs := [] }.setDevLow l low)

section
variable (s : State) (l : Line) (low : Bool)

theorem afterEvents_device (rest : List Event) :
    afterEvents (.device l low :: rest) s = afterEvents rest (s.afterDevice l low) :=
  afterEvents_cons rfl

@[simp] theorem afterDevice_seq : (s.afterDevice l low).seq = s.seq := by cases l <;> rfl
@[simp] theorem afterDevice_reception : (s.afterDevice l low).reception = s.reception := by cases l <;> rfl
@[simp] theorem afterDevice_data_dataDevLow : (s.afterDevice .data low).dataDevLow = low := rfl
@[simp] theorem afterDevice_clk_dataDevLow : (s.afterDevice .clk low).dataDevLow = s.dataDevLow := rfl

end

theorem State.Listening.afterData {s : State} {low : Bool} (h : s.Listening low) (b : Bool) :
    (s.afterDevice .data b).Listening low :=
  ⟨h.configured, h.gate, h.outside, h.pullup, h.clkPad, h.clkDevLow, h.legal⟩

theorem State.Listening.afterClk {s : State} {low : Bool} (h : s.Listening low) (b : Bool) :
    (s.afterDevice .clk b).Listening b :=
  ⟨h.configured, h.gate, h.outside, h.pullup, h.clkPad, rfl, h.legal⟩

theorem State.Listening.enabled_afterPull {s : State} (h : s.Listening false) :
    (s.afterDevice .clk true).handlerEnabled = true :=
  handlerEnabled_iff.mpr
    ⟨latchEdge_of_pull (h.withInputs []) rfl (latches_iff.mpr ⟨h.configured, .inl h.gate⟩), h.gate, h.outside⟩

theorem State.Resting.afterRelease {s : State} (h : s.Resting) (low : s.clkDevLow = true) :
    (s.afterDevice .clk false).Resting :=
  ⟨h.clkPad, h.dataPad, (latchEdge_of_low (s := { s with inputs := [] }) low _).trans h.noEdge⟩

/-- The handler's step with the clock low under an external pull-up consumes the bit that the device shows (R123, R129). -/
theorem handlerStep_take {s : State} (h : s.Listening true) (enabled : s.handlerEnabled = true) :
    handlerStep none s = .next { s with
      edgePending := false, clkPad := .inFloat, dataPad := .inFloat, draws := s.draws + 2
      frame := (s.reception.take (!s.dataDevLow)).frame
      rxStream := (s.reception.take (!s.dataDevLow)).rxStream
      diagLog := (s.reception.take (!s.dataDevLow)).diagLog } := by
  have shown : sampleLevel .data (sampled .clk (enterHandler s)) = !s.dataDevLow := by
    rw [sample_fst_of_pullup (by simpa using h.pullup)]
    simp
  have consumed := consumeBit_take (s := s.atBit) (by simpa using h.legal) (!s.dataDevLow)
  rw [← shown] at consumed ⊢
  rw [handlerStep_next enabled (sample_devLow (by simpa using h.clkDevLow)) consumed, leaveHandler_atBit h.outside]
  rfl

/-- The state after that step. -/
def State.afterHandler (s : State) : State :=
  latchEdge { s with inputs := [] } { s with
    inputs := [], edgePending := false, clkPad := .inFloat, dataPad := .inFloat, draws := s.draws + 2
    frame := (s.reception.take (!s.dataDevLow)).frame
    rxStream := (s.reception.take (!s.dataDevLow)).rxStream
    diagLog := (s.reception.take (!s.dataDevLow)).diagLog }

@[simp] theorem afterHandler_seq (s : State) : s.afterHandler.seq = s.seq := rfl
@[simp] theorem afterHandler_reception (s : State) : s.afterHandler.reception = s.reception.take (!s.dataDevLow) := rfl

section
variable {s : State} (h : s.Listening true)
include h

theorem afterEvents_handler (enabled : s.handlerEnabled = true) (rest : List Event) :
    afterEvents (.handler none :: rest) s = afterEvents rest s.afterHandler :=
  afterEvents_cons (e := .handler none) (handlerStep_take (h.withInputs []) enabled)

theorem State.Listening.afterHandler : s.afterHandler.Listening true :=
  ⟨h.configured, h.gate, h.outside, h.pullup, nofun, h.clkDevLow, take_legal h.legal _⟩

theorem State.Listening.rests_afterHandler : s.afterHandler.Resting :=
  ⟨rfl, rfl, latchEdge_of_low (s := { s with inputs := [] }) h.clkDevLow _⟩

end

/-! ## The run -/

/-- The four events of one bit: the handler consumes it, and the receiver listens and rests. -/
theorem asyncBit_run {s : State} (listen : s.Listening false) (v : Level) :
    ∃ t, afterEvents (asyncBit v) s = .next t ∧ t.Listening false ∧ t.Resting ∧ t.reception = s.reception.take v ∧
      t.seq = s.seq := by
  have shown := listen.afterData (!v)
  have pulled := shown.afterClk true
  refine ⟨((s.afterDevice .data (!v)).afterDevice .clk true).afterHandler.afterDevice .clk false, ?_,
    pulled.afterHandler.afterClk false, pulled.rests_afterHandler.afterRelease pulled.afterHandler.clkDevLow, ?_, ?_⟩
  · rw [asyncBit, afterEvents_device, afterEvents_device, afterEvents_handler pulled shown.enabled_afterPull,
      afterEvents_device, afterEvents_nil]
  · simp
  · simp

/-- A whole frame, bit by bit. -/
theorem asyncFrame_run {s : State} (listen : s.Listening false) (bits : List Level) :
    ∃ t, afterEvents (asyncFrame bits) s = .next t ∧ t.Listening false ∧ (bits ≠ [] ∨ s.Resting → t.Resting) ∧
      t.reception = bits.foldl Reception.take s.reception ∧ t.seq = s.seq := by
  induction bits generalizing s with
  | nil => exact ⟨s, rfl, listen, (·.resolve_left (· rfl)), rfl, rfl⟩
  | cons v bits ih =>
    obtain ⟨u, run, listen', rest, reception, seq⟩ := asyncBit_run listen v
    obtain ⟨t, run', listen'', rest', reception', seq'⟩ := ih listen'
    refine ⟨t, ?_, listen'', fun _ => rest' (.inr rest), ?_, seq'.trans seq⟩
    · rw [asyncFrame, List.flatMap_cons, afterEvents_append run]
      exact run'
    · rw [reception', reception, List.foldl_cons]

/-- Settles O22: the run bit by bit, and what eleven bits from the idle frame on come to. -/
theorem elevenBitsDeliverOneByteWithTheirReports : Obligations.ElevenBitsDeliverOneByteWithTheirReports := by
  unfold Obligations.ElevenBitsDeliverOneByteWithTheirReports
  intro s bits length idle configured gate outside pullup clkPad clkDevLow
  have listen : s.Listening false := ⟨configured, gate, outside, pullup, clkPad, clkDevLow, by simp [idle, Frame.idle]⟩
  obtain ⟨t, run, listen', rest, reception, seq⟩ := asyncFrame_run listen bits
  obtain ⟨floatClk, floatData, noEdge⟩ := rest (.inl (by rintro rfl; cases length))
  rw [State.reception, State.reception, idle, take_frame length] at reception
  obtain ⟨frame, rxStream, diagLog⟩ := Reception.mk.inj reception
  exact ⟨t, run, rxStream, diagLog, frame, seq, listen'.gate, floatClk, floatData, noEdge⟩

end Sys2Proof.Machine
end

section
/-! PROOFS. The five composites begin their series (R210-R215, R166). -/

namespace Sys2Proof.Machine

/-- An admitted operation begins the first transaction of its series, and the rest wait; a composite in whose gap it was
admitted is put aside (R165, R166, R171). -/
theorem exec_begins {i : Instr} (wf : i.WellFormed) {s : State} (ready : s.Ready) {it : Item} {rest : List Item}
    (series : expansion s.cfg i = it :: rest) :
    exec i s = .next { s with
      gate := false
      edgePending := s.edgePending && s.cfg.edgeLatchWhileMasked
      frame := { bitIndex := 0#4, accumulatedByte := 0x00#8, runningParity := false }
      inTxn := true
      txn := { desc := it.desc, args := it.args, results := [], ok := true }
      op := { todo := rest, ok := true, post := it.post }
      suspended := if s.op.todo = [] then s.suspended else s.op :: s.suspended
      seq := .ctOpcode .rtsClk } := by
  rw [exec_eq_startOperation wf, series, startOperation_ready ready, suspend]
  cases s.op.todo <;> rfl

/-- Settles O33: each series is its rule's, slice by slice. -/
theorem compositesBeginTheirSeries : Obligations.CompositesBeginTheirSeries := by
  unfold Obligations.CompositesBeginTheirSeries
  exact fun s b m r ready => ⟨exec_begins rfl ready rfl, exec_begins rfl ready rfl, exec_begins rfl ready rfl,
    exec_begins rfl ready rfl, exec_begins rfl ready rfl⟩

end Sys2Proof.Machine
end

section
/-! PROOFS. Runs of a transaction under a device that clocks every bit (R105, R150-R163): what such a run does to the block is
followed on the state without the lines and the times, wait by wait and bit by bit. -/

namespace Sys2Proof.Machine

/-! ## What is followed of a state -/

/-- The state without the lines, the times, the pending edge and the model's own fields, and of the write's registers the
acknowledgement alone: what a run under a clocking device determines. -/
structure View where
  cfg : Config.Params
  link : LinkConfig
  configured : Bool
  frame : Frame
  gate : Bool
  inTxn : Bool
  inHandler : Bool
  txn : Txn
  ack : Byte
  rb : ReadRegs
  seq : Seq
  op : Operation
  suspended : List Operation
  syn : SynState
  rxStream : List Byte
  diagLog : List DiagEvent
  resultStream : List HostResult

def State.view (s : State) : View where
  cfg := s.cfg
  link := s.link
  configured := s.configured
  frame := s.frame
  gate := s.gate
  inTxn := s.inTxn
  inHandler := s.inHandler
  txn := s.txn
  ack := s.wb.ack
  rb := s.rb
  seq := s.seq
  op := s.op
  suspended := s.suspended
  syn := s.syn
  rxStream := s.rxStream
  diagLog := s.diagLog
  resultStream := s.resultStream

/-- The events of `l` take every state seen as `v` to one seen as `w`. -/
def Leads (l : List Event) (v w : View) : Prop :=
  ∀ s : State, s.view = v → ∃ t, afterEvents l s = .next t ∧ t.view = w

theorem Leads.nil (v : View) : Leads [] v v := fun s h => ⟨s, rfl, h⟩

theorem Leads.append {l m : List Event} {v w x : View} (first : Leads l v w) (second : Leads m w x) : Leads (l ++ m) v x := by
  intro s h
  obtain ⟨t, run, h⟩ := first s h
  obtain ⟨u, run', h⟩ := second t h
  exact ⟨u, (afterEvents_append run).trans run', h⟩

/-- `t` is `u` after the edge detector's look at a step (R109). -/
structure State.Observed (t u : State) : Prop where
  view : t.view = u.view
  clkPad : t.clkPad = u.clkPad
  clkDevLow : t.clkDevLow = u.clkDevLow
  dataDevLow : t.dataDevLow = u.dataDevLow
  waitT0 : t.waitT0 = u.waitT0
  now : t.now = u.now

theorem afterEvents_event {e : Event} {s u : State} (h : applyEvent e { s with inputs := [] } = .next u) (rest : List Event) :
    ∃ t, afterEvents (e :: rest) s = afterEvents rest t ∧ t.Observed u :=
  ⟨_, afterEvents_cons h, rfl, rfl, rfl, rfl, rfl, rfl⟩

/-! ## The engine's primitives, whatever the procedure they are part of (R37, R165) -/

/-- In a transaction with the registers `x` the engine at `q` takes the primitive `effect`, and goes to `q'` where it is done. -/
def Performs (x : Txn) (q : Seq) (done : State → Bool) (effect : State → State) (q' : Seq) : Prop :=
  ∀ s : State, s.txn = x → s.seq = q → done s = true → engineStep s = .next { effect s with seq := q' }

/-- The positions `position` are those of a `write_byte(b)`, after which the transaction goes to `after`. -/
def Writes (x : Txn) (b : Byte) (position : WritePos → Seq) (after : Seq) : Prop :=
  ∀ p, Performs x (position p) (writeDone p) (writeEffect b p) (p.next.elim after position)

/-- The positions `position` are those of a `read_byte_sync()` in a transaction with the registers `x`. -/
def Reads (x : Txn) (position : ReadPos → Seq) : Prop :=
  ∀ p q, p.next = some q → Performs x (position p) (readDone p) (readEffect p) (position q)

theorem writes_ctOpcode (x : Txn) :
    Writes x (opcodeByte x.desc) .ctOpcode (Seq.afterWrites (sendCount x.desc) (recvCount x.desc) 0) := by
  rintro p s rfl hq done
  rw [engineStep_ctOpcode hq, done, advance, if_pos rfl, writeEffect_seq, writeEffect_desc, hq, next_ctOpcode]

theorem writes_ctArg {x : Txn} {i : Nat} {b : Byte} (written : x.args[i]? = some b) :
    Writes x b (.ctArg i) (Seq.afterWrites (sendCount x.desc) (recvCount x.desc) (i + 1)) := by
  rintro p s rfl hq done
  simp only [engineStep, hq, written, readElement_some]
  rw [done, advance, if_pos rfl, writeEffect_seq, writeEffect_desc, hq, next_ctArg]

theorem performs_ctResp (x : Txn) (j : Nat) (p : ReadPos) :
    Performs x (.ctResp j p) (readDone p) (fun s => takeResponse p (readEffect p s))
      (p.next.elim (Seq.afterReads (recvCount x.desc) (j + 1)) (.ctResp j)) := by
  rintro s rfl hq done
  rw [engineStep_ctResp hq, done, advance, if_pos rfl, takeResponse_seq, readEffect_seq, takeResponse_desc, readEffect_txn,
    hq, next_ctResp]

theorem ne_pulseRel_of_next {p q : ReadPos} (next : p.next = some q) : p ≠ .pulseRel := by
  rintro rfl
  cases next

theorem Performs.congr {x : Txn} {q q' : Seq} {done : State → Bool} {effect effect' : State → State}
    (h : Performs x q done effect q') (same : ∀ s, effect s = effect' s) : Performs x q done effect' q' :=
  funext same ▸ h

theorem reads_ctResp (x : Txn) (j : Nat) : Reads x (.ctResp j) := by
  intro p q next
  have performs := performs_ctResp x j p
  rw [next] at performs
  exact performs.congr fun s => takeResponse_of_ne (ne_pulseRel_of_next next) _

/-- A write reads its acknowledgement (R156). -/
theorem Writes.ack {x : Txn} {b : Byte} {position : WritePos → Seq} {after : Seq} (writes : Writes x b position after) :
    Reads x (fun p => position (.ack p)) := by
  intro p q next
  have performs := writes (.ack p)
  rw [next_ack, next] at performs
  exact performs.congr fun s => takeAck_of_ne (ne_pulseRel_of_next next) _

theorem leads_engine {v w : View} (step : ∀ s, s.view = v → ∃ u, engineStep s = .next u ∧ u.view = w) :
    Leads [.engine] v w := by
  rintro s view
  obtain ⟨u, step, seen⟩ := step { s with inputs := [] } view
  exact ⟨_, afterEvents_cons (e := .engine) step, seen⟩

/-- One primitive that is done at once. -/
theorem Performs.leads {v w : View} {effect : State → State} {q' : Seq}
    (performs : Performs v.txn v.seq (fun _ => true) effect q') (seen : ∀ s, s.view = v → (effect s).view = w) :
    Leads [.engine] v { w with seq := q' } :=
  leads_engine fun s view => ⟨_, performs s (congrArg View.txn view) (congrArg View.seq view) rfl,
    congrArg (fun v : View => { v with seq := q' }) (seen s view)⟩

/-- One that changes the lines alone. -/
theorem Performs.leads_silent {v : View} {effect : State → State} {q' : Seq}
    (performs : Performs v.txn v.seq (fun _ => true) effect q') (silent : ∀ s, (effect s).view = s.view) :
    Leads [.engine] v { v with seq := q' } :=
  performs.leads fun s h => (silent s).trans h

/-! ## Waits and holds (R105, R107) -/

/-- A line that the device pulls low, or that floats under an external pull-up, has the level that is waited for. -/
theorem levelAt_awaited {t : Level} {s : State} (pad : s.clkPad = waitPad t) (dev : s.clkDevLow = !t)
    (pullup : s.cfg.extPullup = true) (n : Nat) : levelAt n .clk s = t := by
  cases t with
  | false => exact levelWith_low (.inr dev)
  | true => exact levelWith_high (l := .clk) (by simp [State.pad, pad, waitPad]) dev (.inr pullup)

/-- The device brings about the level that a clock wait waits for, and the first poll sees it. -/
theorem leads_wait {v : View} {start : ReadRegs → ReadRegs} {t : Level} {q q' : Seq} (pullup : v.cfg.extPullup = true)
    (enter : Performs v.txn v.seq (fun _ => true) (fun s => waitEnter t { s with rb := start s.rb }) q)
    (poll : Performs v.txn q (fun s => (pollClock t s).done) (waitPoll t) q') :
    Leads [.engine, .device .clk (!t), .engine] v { v with rb := start v.rb, seq := q' } := by
  rintro s rfl
  obtain ⟨u, run, entered⟩ := afterEvents_event (e := .engine) (enter { s with inputs := [] } rfl rfl rfl)
    [.device .clk (!t), .engine]
  obtain ⟨w, run', clocked⟩ := afterEvents_event (e := .device .clk (!t)) (s := u) rfl [.engine]
  have view : w.view = { s.view with rb := start s.rb, seq := q } := clocked.view.trans entered.view
  have level : levelAt w.draws .clk { w with inputs := [] } = t :=
    levelAt_awaited (clocked.clkPad.trans entered.clkPad) clocked.clkDevLow
      (by rw [← pullup]; exact congrArg (·.cfg.extPullup) view) _
  have done : (pollClock t { w with inputs := [] }).done = true := by rw [pollClock_seen level]; rfl
  obtain ⟨x, run'', polled⟩ := afterEvents_event (e := .engine)
    (poll { w with inputs := [] } (congrArg View.txn view) (congrArg View.seq view) done) []
  rw [waitPoll_seen level] at polled
  refine ⟨x, run.trans (run'.trans run''), polled.view.trans ?_⟩
  exact congrArg (fun v : View => { v with seq := q' }) view

/-- A hold lasts as long as the time step between its entry and its poll. -/
theorem leads_hold {v : View} {bound : Config.Params → Time} {q q' : Seq}
    (enter : Performs v.txn v.seq (fun _ => true) delayEnter q)
    (poll : Performs v.txn q (fun s => (pollDelay (bound s.cfg) s).done) id q') :
    Leads [.engine, .time (bound v.cfg), .engine] v { v with seq := q' } := by
  rintro s rfl
  obtain ⟨u, run, entered⟩ := afterEvents_event (e := .engine) (enter { s with inputs := [] } rfl rfl rfl)
    [.time (bound s.cfg), .engine]
  obtain ⟨w, run', waited⟩ := afterEvents_event (e := .time (bound s.cfg)) (s := u) rfl [.engine]
  have view : w.view = { s.view with seq := q } := waited.view.trans entered.view
  have cfg : w.cfg = s.cfg := congrArg View.cfg view
  have now : w.now = s.now + bound s.cfg := waited.now.trans (congrArg (· + bound s.cfg) entered.now)
  have waitT0 : w.waitT0 = s.now := waited.waitT0.trans entered.waitT0
  have passed : bound w.cfg ≤ w.now - w.waitT0 := Nat.le_of_eq (by rw [cfg, now, waitT0, Nat.add_sub_cancel_left])
  have done : (pollDelay (bound w.cfg) { w with inputs := [] }).done = true :=
    (pollDelay_done _ _).trans (decide_eq_true passed)
  obtain ⟨x, run'', polled⟩ := afterEvents_event (e := .engine)
    (poll { w with inputs := [] } (congrArg View.txn view) (congrArg View.seq view) done) []
  refine ⟨x, run.trans (run'.trans run''), polled.view.trans ?_⟩
  exact congrArg (fun v : View => { v with seq := q' }) view

/-- The device puts a bit on `DATA`, and the engine takes a primitive that looks at the line. -/
theorem leads_shown {v w : View} {effect : State → State} {q' : Seq} (d : Level)
    (performs : Performs v.txn v.seq (fun _ => true) effect q')
    (seen : ∀ s, s.view = v → s.dataDevLow = !d → (effect s).view = w) :
    Leads [.device .data (!d), .engine] v { w with seq := q' } := by
  rintro s rfl
  obtain ⟨u, run, shown⟩ := afterEvents_event (e := .device .data (!d)) (s := s) rfl [.engine]
  have view : u.view = s.view := shown.view
  obtain ⟨x, run', performed⟩ := afterEvents_event (e := .engine)
    (performs { u with inputs := [] } (congrArg View.txn view) (congrArg View.seq view) rfl) []
  refine ⟨x, run.trans run', performed.view.trans ?_⟩
  exact congrArg (fun v : View => { v with seq := q' }) (seen { u with inputs := [] } view shown.dataDevLow)

end Sys2Proof.Machine
end

section
/-! PROOFS. A synchronous read of the eleven bits that the device sends (R158-R163, R241-R243), bit by bit. -/

namespace Sys2Proof.Machine

/-! ## One bit -/

/-- The report of a synchronous check, if it fails (R247). -/
def syncReportUnless (passes : Bool) (e : ErrorName) (i : DiagInfo) : List DiagEvent :=
  if passes then [] else [{ error := e, context := .sync, info := i }]

theorem check_sync (passes : Bool) (e : ErrorName) (i : DiagInfo) (s : State) :
    check passes e .sync i s = { s with diagLog := s.diagLog ++ syncReportUnless passes e i } := by
  cases passes <;> simp [check, syncReportUnless, report]

/-- The registers with which the wait at frame position `k` begins (R158, log 15). -/
def ReadRegs.start (r : ReadRegs) (k : Nat) : ReadRegs := if k = 0 then { r with byte := 0#8, parity := false } else r

/-- The registers when the bit `d` has been sampled at frame position `k` (R158-R161). -/
def ReadRegs.sample (r : ReadRegs) (k : Nat) (d : Level) : ReadRegs where
  bit := d
  byte := if 1 ≤ k ∧ k ≤ 8 then putBit r.byte (k - 1) d else r.byte
  parity := if 1 ≤ k ∧ k ≤ 9 then r.parity ^^ d else r.parity

/-- And the report of its check, if it fails (R241-R243). -/
def ReadRegs.reports (r : ReadRegs) (k : Nat) (d : Level) : List DiagEvent :=
  if k = 0 then syncReportUnless (startOk d) .startBitError (.bit d)
  else if k ≤ 8 then []
  else if k = 9 then syncReportUnless (parityOk (r.parity ^^ d)) .parityError (.byte r.byte)
  else syncReportUnless (stopOk d) .stopBitError (.byte r.byte)

/-- The bit `d` read at frame position `k`, after which the read is at `q`. -/
def View.readBit (v : View) (k : Nat) (d : Level) (q : Seq) : View :=
  { v with
    rb := (v.rb.start k).sample k d
    diagLog := v.diagLog ++ (v.rb.start k).reports k d
    seq := q }

theorem readSample_diagLog (k : Nat) (s : State) :
    (readSample k s).diagLog = s.diagLog ++ s.rb.reports k (sampleLevel .data s) := by
  unfold readSample readBit ReadRegs.reports
  rw [check_sync, check_sync, check_sync]
  split
  · simp
  split
  · simp
  split <;> simp

theorem readSample_view (k : Nat) (s : State) :
    (readSample k s).view =
      { s.view with
        rb := s.rb.sample k (sampleLevel .data s)
        diagLog := s.diagLog ++ s.rb.reports k (sampleLevel .data s) } := by
  simp [State.view, readSample_rb, readSample_diagLog, ReadRegs.sample]

theorem sampleLevel_shown {s : State} {d : Level} (pullup : s.cfg.extPullup = true) (shown : s.dataDevLow = !d) :
    sampleLevel .data s = d := by
  rw [sample_fst_of_pullup pullup, State.devLow, shown, Bool.not_not]

/-- Where a read goes on when the bits before frame position `k` have been read (R163). -/
def bitStart (k : Nat) : ReadPos := if h : k < 11 then .waitLow ⟨k, h⟩ .enter else .pulseLow

theorem next_waitHigh_poll (k : Fin 11) : (ReadPos.waitHigh k .poll).next = some (bitStart (k.val + 1)) := by
  simp only [ReadPos.next, bitStart]
  split <;> rfl

section
variable {v : View} {position : ReadPos → Seq} (reads : Reads v.txn position) (pullup : v.cfg.extPullup = true)
include reads pullup

/-- The eight events of one bit. -/
theorem leads_deviceBit {k : Nat} (hk : k < 11) (atBit : v.seq = position (bitStart k)) (d : Level) :
    Leads (deviceBit d) v (v.readBit k d (position (bitStart (k + 1)))) := by
  let k' : Fin 11 := ⟨k, hk⟩
  rw [bitStart, dif_pos hk] at atBit
  have enter : Performs v.txn v.seq (fun _ => true) (fun s => waitEnter LOW { s with rb := s.rb.start k })
      (position (.waitLow k' .poll)) :=
    atBit ▸ (reads (.waitLow k' .enter) _ rfl).congr fun s => by
      simp only [readEffect, ReadRegs.start]; split <;> rfl
  have low : Leads [.engine, .device .clk true, .engine] v { v with rb := v.rb.start k, seq := position (.sample k') } :=
    leads_wait (t := LOW) (start := (·.start k)) pullup enter (reads (.waitLow k' .poll) _ rfl)
  have sample : Leads [.device .data (!d), .engine] { v with rb := v.rb.start k, seq := position (.sample k') }
      (v.readBit k d (position (.waitHigh k' .enter))) :=
    leads_shown (v := { v with rb := v.rb.start k, seq := position (.sample k') }) d (reads (.sample k') _ rfl)
      fun s view shown => by
        rw [readEffect, readSample_view, sampleLevel_shown ((congrArg (·.cfg.extPullup) view).trans pullup) shown]
        exact congrArg (fun v : View => { v with rb := v.rb.sample k d, diagLog := v.diagLog ++ v.rb.reports k d }) view
  have high : Leads [.engine, .device .clk false, .engine] (v.readBit k d (position (.waitHigh k' .enter)))
      (v.readBit k d (position (bitStart (k + 1)))) :=
    leads_wait (t := HIGH) (start := id) pullup (reads (.waitHigh k' .enter) _ rfl)
      (reads (.waitHigh k' .poll) _ (next_waitHigh_poll k'))
  exact low.append (sample.append high)

end

/-! ## Eleven bits -/

/-- The start bit and `n` payload bits read: the registers hold what they assemble, and its parity. -/
def View.readPayload (v : View) (bits : List Level) (n : Nat) (q : Seq) : View :=
  { v with
    rb := { byte := bytePrefix bits n, parity := byteParity (bytePrefix bits n), bit := bits.getD n false }
    diagLog := v.diagLog ++ syncReportUnless (startOk (bits.getD 0 false)) .startBitError (.bit true)
    seq := q }

/-- All eleven bits read: the registers hold the byte they assemble, and each failed check is reported. -/
def View.readFrame (v : View) (bits : List Level) (q : Seq) : View :=
  { v with
    rb := { byte := byteOfBits bits, parity := byteParity (byteOfBits bits) ^^ bits.getD 9 false, bit := bits.getD 10 false }
    diagLog := v.diagLog ++ frameReports .sync bits
    seq := q }

section
variable (v : View) (bits : List Level) (q q' q'' : Seq)

theorem readBit_start : v.readBit 0 (bits.getD 0 false) q = v.readPayload bits 0 q := by
  have noOnes : byteParity (bytePrefix bits 0) = false := (by decide : byteParity 0#8 = false)
  rw [View.readPayload, noOnes]
  cases h : bits.getD 0 false <;> rfl

theorem readBit_readPayload {n : Nat} (hn : n < 8) :
    (v.readPayload bits n q).readBit (n + 1) (bits.getD (n + 1) false) q' = v.readPayload bits (n + 1) q' := by
  rw [View.readBit, ReadRegs.start, if_neg (by omega), ReadRegs.sample, if_pos (by omega), if_pos (by omega),
    ReadRegs.reports, if_neg (by omega), if_pos (by omega), List.append_nil, View.readPayload, View.readPayload,
    byteParity_bytePrefix_succ bits (by omega), bytePrefix_succ, Nat.add_sub_cancel]

theorem readBit_stop :
    ((v.readPayload bits 8 q).readBit 9 (bits.getD 9 false) q').readBit 10 (bits.getD 10 false) q'' =
      v.readFrame bits q'' := by
  rw [View.readFrame, frameReports, ← List.append_assoc, ← List.append_assoc]
  rfl

end

section
variable {v : View} {position : ReadPos → Seq} (reads : Reads v.txn position)
include reads

theorem leads_payload (pullup : v.cfg.extPullup = true) {bits : List Level} (length : bits.length = 11)
    (first : v.seq = position ReadPos.first) {n : Nat} (hn : n ≤ 8) :
    Leads ((bits.take (n + 1)).flatMap deviceBit) v (v.readPayload bits n (position (bitStart (n + 1)))) := by
  induction n with
  | zero =>
    rw [take_succ_getD (by omega), List.take_zero, List.nil_append, List.flatMap_singleton, ← readBit_start]
    exact leads_deviceBit (k := 0) reads pullup (by omega) first _
  | succ n ih =>
    rw [take_succ_getD (by omega), List.flatMap_append, List.flatMap_singleton, ← readBit_readPayload _ _ _ _ hn]
    exact (ih (by omega)).append
      (leads_deviceBit (v := v.readPayload bits n _) reads pullup (by omega) rfl _)

theorem leads_bits (pullup : v.cfg.extPullup = true) {bits : List Level} (length : bits.length = 11)
    (first : v.seq = position ReadPos.first) :
    Leads (bits.flatMap deviceBit) v (v.readFrame bits (position .pulseLow)) := by
  have whole : bits = bits.take 9 ++ [bits.getD 9 false] ++ [bits.getD 10 false] := by
    rw [← take_succ_getD (by omega), ← take_succ_getD (by omega), List.take_of_length_le (by omega)]
  have events : bits.flatMap deviceBit =
      (bits.take 9).flatMap deviceBit ++ deviceBit (bits.getD 9 false) ++ deviceBit (bits.getD 10 false) := by
    conv => lhs; rw [whole]
    simp only [List.flatMap_append, List.flatMap_singleton]
  have payload := leads_payload reads pullup length first (Nat.le_refl 8)
  have parity := leads_deviceBit (v := v.readPayload bits 8 (position (bitStart 9))) reads pullup (by omega) rfl
    (bits.getD 9 false)
  have stop := leads_deviceBit (v := (v.readPayload bits 8 (position (bitStart 9))).readBit 9 (bits.getD 9 false)
    (position (bitStart 10))) reads pullup (by omega) rfl (bits.getD 10 false)
  rw [events, ← readBit_stop v bits (position (bitStart 9)) (position (bitStart 10))]
  exact (payload.append parity).append stop

/-- The ready pulse up to its end (R162). -/
theorem leads_pulse (atPulse : v.seq = position .pulseLow) :
    Leads [.engine, .engine, .time v.cfg.tReadyPulse, .engine] v { v with seq := position .pulseRel } := by
  have low : Leads [.engine] v { v with seq := position (.pulseHold .enter) } :=
    Performs.leads_silent (effect := driveLow .clk) (atPulse ▸ reads .pulseLow _ rfl) fun _ => rfl
  exact low.append (leads_hold (bound := (·.tReadyPulse)) (reads (.pulseHold .enter) _ rfl) (reads (.pulseHold .poll) _ rfl))

/-- A whole read of the bits that the device sends, up to the step in which its byte is taken (R163). -/
theorem leads_frame (pullup : v.cfg.extPullup = true) {bits : List Level} (length : bits.length = 11)
    (first : v.seq = position ReadPos.first) {w : View}
    (taken : Leads [.engine] (v.readFrame bits (position .pulseRel)) w) : Leads (deviceFrame v.cfg bits) v w :=
  (leads_bits reads pullup length first).append ((leads_pulse (v := v.readFrame bits _) reads rfl).append taken)

end

/-! ## The frame of a byte (R73, R77) -/

theorem frameBits_getD (b : Byte) {k : Nat} (hk : k < 11) : (frameBits b).getD k false = frameBit b k := by
  simp [frameBits, hk]

theorem bitOf_bytePrefix (bits : List Level) (n : Nat) {k : Nat} (hk : k < 8) :
    bitOf (bytePrefix bits n) k = (decide (k < n) && bits.getD (k + 1) false) := by
  induction n with
  | zero => exact BitVec.getLsbD_zero
  | succ n ih =>
    rw [bytePrefix_succ, bitOf_putBit _ _ _ hk, ih]
    obtain below | rfl | above : k < n ∨ k = n ∨ n < k := Nat.lt_trichotomy k n
    · simp [below, Nat.ne_of_lt below, Nat.lt_succ_of_lt below]
    · simp
    · simp [Nat.ne_of_gt above, Nat.not_lt_of_gt above, show ¬ k < n + 1 by omega]

/-- The frame of a byte assembles to it. -/
theorem byteOfBits_frameBits (b : Byte) : byteOfBits (frameBits b) = b := by
  refine BitVec.eq_of_getLsbD_eq fun k hk => ?_
  refine (bitOf_bytePrefix (frameBits b) 8 hk).trans ?_
  rw [decide_eq_true hk, Bool.true_and, frameBits_getD b (by omega), frameBit, if_neg (by omega), if_pos (by omega),
    Nat.add_sub_cancel, bitOf]

/-- And passes the three checks. -/
theorem frameReports_frameBits (c : DiagContext) (b : Byte) : frameReports c (frameBits b) = [] := by
  rw [frameReports, byteOfBits_frameBits, frameBits_getD b (by omega), frameBits_getD b (by omega),
    frameBits_getD b (by omega)]
  have parity : parityOk (byteParity b ^^ txParity b) = true := (parityOk_iff_txParity b _).mpr rfl
  simp [frameBit, parity, startOk, stopOk]

/-- The registers after the read of a byte's own frame. -/
def ReadRegs.ofByte (b : Byte) : ReadRegs where
  byte := b
  parity := byteParity b ^^ txParity b
  bit := true

theorem readFrame_frameBits (v : View) (b : Byte) (q : Seq) :
    v.readFrame (frameBits b) q = { v with rb := .ofByte b, seq := q } := by
  rw [View.readFrame, frameReports_frameBits, byteOfBits_frameBits, frameBits_getD b (by omega), frameBits_getD b (by omega),
    List.append_nil]
  rfl

end Sys2Proof.Machine
end

section
/-! PROOFS. A write that the device clocks and acknowledges (R150-R157), up to the position after it. -/

namespace Sys2Proof.Machine

/-- Where a write goes on when the bits before the `i`-th have been driven (R157). -/
def driveStart (i : Nat) : WritePos := if h : i < 10 then .bitWaitLow ⟨i, h⟩ .enter else .lcWaitLow .enter

theorem next_bitWaitHigh_poll (i : Fin 10) : (WritePos.bitWaitHigh i .poll).next = some (driveStart (i.val + 1)) := by
  simp only [WritePos.next, driveStart]
  split <;> rfl

theorem writeBit_view (i : Nat) (s : State) : (writeBit i s).view = s.view := by
  simp [State.view, writeBit_wb]

theorem lineControl_view {s : State} (low : sampleLevel .data s = LOW) : (lineControl s).view = s.view := by
  rw [lineControl, low]
  rfl

section
variable {v : View} {b : Byte} {position : WritePos → Seq} {after : Seq} (writes : Writes v.txn b position after)
include writes

/-- The request-to-send (R151). -/
theorem leads_requestToSend (first : v.seq = position .rtsClk) :
    Leads [.engine, .engine, .time v.cfg.tRts, .engine, .engine, .engine] v
      { v with seq := position (.bitWaitLow 0 .enter) } := by
  have clk : Leads [.engine] v { v with seq := position (.rtsHold .enter) } :=
    Performs.leads_silent (effect := writeEffect b .rtsClk) (first ▸ writes .rtsClk) fun _ => rfl
  have hold : Leads [.engine, .time v.cfg.tRts, .engine] { v with seq := position (.rtsHold .enter) }
      { v with seq := position .rtsData } :=
    leads_hold (bound := (·.tRts)) (writes (.rtsHold .enter)) (writes (.rtsHold .poll))
  have data : Leads [.engine] { v with seq := position .rtsData } { v with seq := position .rtsRel } :=
    Performs.leads_silent (writes .rtsData) fun _ => rfl
  have release : Leads [.engine] { v with seq := position .rtsRel } { v with seq := position (.bitWaitLow 0 .enter) } :=
    Performs.leads_silent (writes .rtsRel) fun _ => rfl
  exact clk.append (hold.append (data.append release))

/-- One bit that the host drives (R152-R154). -/
theorem leads_hostBit (pullup : v.cfg.extPullup = true) {i : Nat} (hi : i < 10) (atBit : v.seq = position (driveStart i)) :
    Leads hostBit v { v with seq := position (driveStart (i + 1)) } := by
  let i' : Fin 10 := ⟨i, hi⟩
  rw [driveStart, dif_pos hi] at atBit
  have low : Leads [.engine, .device .clk true, .engine] v { v with seq := position (.bitDrive i') } :=
    leads_wait (t := LOW) (start := id) pullup (atBit ▸ writes (.bitWaitLow i' .enter)) (writes (.bitWaitLow i' .poll))
  have drive : Leads [.engine] { v with seq := position (.bitDrive i') } { v with seq := position (.bitWaitHigh i' .enter) } :=
    Performs.leads_silent (writes (.bitDrive i')) (writeBit_view i)
  have poll := writes (.bitWaitHigh i' .poll)
  rw [next_bitWaitHigh_poll] at poll
  exact low.append (drive.append (leads_wait (t := HIGH) (start := id) pullup (writes (.bitWaitHigh i' .enter)) poll))

theorem leads_hostBits (pullup : v.cfg.extPullup = true) (atBits : v.seq = position (driveStart 0)) {n : Nat} (hn : n ≤ 10) :
    Leads (List.replicate n hostBit).flatten v { v with seq := position (driveStart n) } := by
  induction n with
  | zero =>
    rw [← atBits]
    exact Leads.nil v
  | succ n ih =>
    rw [List.replicate_succ', List.flatten_append, List.flatten_singleton]
    exact (ih (by omega)).append
      (leads_hostBit (v := { v with seq := position (driveStart n) }) writes pullup (by omega) rfl)

/-- The line control, at which the device holds `DATA` low (R155). -/
theorem leads_lineControl (pullup : v.cfg.extPullup = true) (atLc : v.seq = position (.lcWaitLow .enter)) :
    Leads (deviceBit false) v { v with seq := position (.ack ReadPos.first) } := by
  have low : Leads [.engine, .device .clk true, .engine] v { v with seq := position .lcSample } :=
    leads_wait (t := LOW) (start := id) pullup (atLc ▸ writes (.lcWaitLow .enter)) (writes (.lcWaitLow .poll))
  have sample : Leads [.device .data true, .engine] { v with seq := position .lcSample }
      { v with seq := position (.lcWaitHigh .enter) } :=
    leads_shown (v := { v with seq := position .lcSample }) (w := { v with seq := position .lcSample }) false
      (writes .lcSample) fun s view shown =>
        (lineControl_view (sampleLevel_shown ((congrArg (·.cfg.extPullup) view).trans pullup) shown)).trans view
  exact low.append (sample.append
    (leads_wait (t := HIGH) (start := id) pullup (writes (.lcWaitHigh .enter)) (writes (.lcWaitHigh .poll))))

end

/-- Writes acknowledged with `acks` have been checked (R156); `ack` and `rb` are what the last of them leaves. -/
def View.acknowledged (v : View) (acks : List Byte) (ack : Byte) (rb : ReadRegs) (q : Seq) : View :=
  { v with
    ack := ack
    rb := rb
    txn := { v.txn with ok := v.txn.ok && acks.all ackOk }
    diagLog := v.diagLog ++ nackReports acks
    seq := q }

theorem writeCheck_view (s : State) : (writeCheck s).view = s.view.acknowledged [s.wb.ack] s.wb.ack s.rb s.seq := by
  unfold writeCheck View.acknowledged
  rw [check_sync]
  cases h : ackOk s.wb.ack <;> simp [State.view, syncReportUnless, nackReports, h]

theorem takeAck_view (s : State) : (takeAck .pulseRel (releaseHigh .clk s)).view = { s.view with ack := s.rb.byte } := rfl

/-- A whole write (R157). -/
theorem leads_acknowledgedWrite {v : View} {b : Byte} {position : WritePos → Seq} {after : Seq}
    (writes : Writes v.txn b position after) (pullup : v.cfg.extPullup = true) (first : v.seq = position .rtsClk) (ack : Byte) :
    Leads (acknowledgedWrite v.cfg ack) v (v.acknowledged [ack] ack (.ofByte ack) after) := by
  have rts := leads_requestToSend writes first
  have drive := leads_hostBits (v := { v with seq := position (driveStart 0) }) writes pullup rfl (Nat.le_refl 10)
  have lineControl := leads_lineControl (v := { v with seq := position (driveStart 10) }) writes pullup rfl
  have read : Leads (deviceByte v.cfg ack) { v with seq := position (.ack ReadPos.first) }
      { v with rb := .ofByte ack, ack := ack, seq := position .check } := by
    refine leads_frame (v := { v with seq := position (.ack ReadPos.first) }) writes.ack pullup rfl rfl ?_
    rw [readFrame_frameBits]
    exact Performs.leads (v := { v with rb := .ofByte ack, seq := position (.ack .pulseRel) }) (writes (.ack .pulseRel))
      fun s view => (takeAck_view s).trans (congrArg (fun v : View => { v with ack := v.rb.byte }) view)
  have check : Leads [.engine] { v with rb := .ofByte ack, ack := ack, seq := position .check }
      (v.acknowledged [ack] ack (.ofByte ack) after) :=
    Performs.leads (v := { v with rb := .ofByte ack, ack := ack, seq := position .check }) (writes .check)
      fun s view => (writeCheck_view s).trans (congrArg (fun v : View => v.acknowledged [v.ack] v.ack v.rb v.seq) view)
  exact (((rts.append drive).append lineControl).append read).append check

end Sys2Proof.Machine
end

section
/-! PROOFS. A transaction, and a whole operation, under a device that clocks every bit and answers what is asked for (R165-R169,
R173, R218). -/

namespace Sys2Proof.Machine

/-! ## The writes and the reads of a transaction (R165, R167, R168) -/

/-- The responses `rs` have been stored; `rb` is what the last of them leaves. -/
def View.responded (v : View) (rs : List Byte) (rb : ReadRegs) (q : Seq) : View :=
  { v with txn := { v.txn with results := v.txn.results ++ rs }, rb := rb, seq := q }

theorem acknowledged_acknowledged (v : View) (acks acks' : List Byte) (ack ack' : Byte) (rb rb' : ReadRegs) (q q' : Seq) :
    (v.acknowledged acks ack rb q).acknowledged acks' ack' rb' q' = v.acknowledged (acks ++ acks') ack' rb' q' := by
  simp [View.acknowledged, nackReports, Bool.and_assoc]

theorem acknowledged_nil (v : View) : v.acknowledged [] v.ack v.rb v.seq = v := by
  simp [View.acknowledged, nackReports]

theorem responded_responded (v : View) (rs rs' : List Byte) (rb rb' : ReadRegs) (q q' : Seq) :
    (v.responded rs rb q).responded rs' rb' q' = v.responded (rs ++ rs') rb' q' := by
  simp [View.responded]

/-- The arguments from the `i`-th on are written, one after another. -/
theorem leads_arguments {acks : List Byte} {v : View} {i : Nat} (pullup : v.cfg.extPullup = true)
    (args : v.txn.args.length = sendCount v.txn.desc) (count : i + acks.length = sendCount v.txn.desc)
    (atArg : v.seq = Seq.afterWrites (sendCount v.txn.desc) (recvCount v.txn.desc) i) :
    ∃ ack rb, Leads (acks.flatMap (acknowledgedWrite v.cfg)) v
      (v.acknowledged acks ack rb (Seq.afterReads (recvCount v.txn.desc) 0)) := by
  induction acks generalizing v i with
  | nil =>
    have done : ¬ i < sendCount v.txn.desc := by rw [← count]; simp
    rw [Seq.afterWrites, if_neg done] at atArg
    refine ⟨v.ack, v.rb, ?_⟩
    rw [← atArg, acknowledged_nil]
    exact Leads.nil v
  | cons ack acks ih =>
    have count : i + 1 + acks.length = sendCount v.txn.desc := by rw [List.length_cons] at count; omega
    have more : i < sendCount v.txn.desc := by omega
    rw [Seq.afterWrites, if_pos more] at atArg
    have write := leads_acknowledgedWrite (writes_ctArg (List.getElem?_eq_getElem (args ▸ more))) pullup atArg ack
    obtain ⟨ack', rb', rest⟩ := ih (v := v.acknowledged [ack] ack (.ofByte ack)
      (Seq.afterWrites (sendCount v.txn.desc) (recvCount v.txn.desc) (i + 1))) pullup args count rfl
    rw [acknowledged_acknowledged] at rest
    exact ⟨ack', rb', write.append rest⟩

theorem takeResponse_view (s : State) :
    (takeResponse .pulseRel (releaseHigh .clk s)).view = s.view.responded [s.rb.byte] s.rb s.seq := rfl

/-- One response is read and stored (R168). -/
theorem leads_response {v : View} {j : Nat} (pullup : v.cfg.extPullup = true) (first : v.seq = .ctResp j ReadPos.first)
    (r : Byte) :
    Leads (deviceByte v.cfg r) v (v.responded [r] (.ofByte r) (Seq.afterReads (recvCount v.txn.desc) (j + 1))) := by
  refine leads_frame (reads_ctResp v.txn j) pullup rfl first ?_
  rw [readFrame_frameBits]
  exact Performs.leads (v := { v with rb := .ofByte r, seq := .ctResp j .pulseRel }) (performs_ctResp v.txn j .pulseRel)
    fun s view => (takeResponse_view s).trans (congrArg (fun v : View => v.responded [v.rb.byte] v.rb v.seq) view)

/-- The responses from the `j`-th on are read, one after another. -/
theorem leads_responses {rs : List Byte} {v : View} {j : Nat} (pullup : v.cfg.extPullup = true)
    (count : j + rs.length = recvCount v.txn.desc) (atResp : v.seq = Seq.afterReads (recvCount v.txn.desc) j) :
    ∃ rb, Leads (rs.flatMap (deviceByte v.cfg)) v (v.responded rs rb .ctEnd) := by
  induction rs generalizing v j with
  | nil =>
    have done : ¬ j < recvCount v.txn.desc := by rw [← count]; simp
    rw [Seq.afterReads, if_neg done] at atResp
    refine ⟨v.rb, ?_⟩
    rw [View.responded, List.append_nil, ← atResp]
    exact Leads.nil v
  | cons r rs ih =>
    have count : j + 1 + rs.length = recvCount v.txn.desc := by rw [List.length_cons] at count; omega
    have more : j < recvCount v.txn.desc := by omega
    rw [Seq.afterReads, if_pos more] at atResp
    obtain ⟨rb, rest⟩ := ih (v := v.responded [r] (.ofByte r) (Seq.afterReads (recvCount v.txn.desc) (j + 1))) pullup count rfl
    rw [responded_responded] at rest
    exact ⟨rb, (leads_response pullup atResp r).append rest⟩

/-- All that a transaction writes and reads has been written and read, with the answer `a`; `ack` and `rb` are what the last
write and the last read leave. -/
def View.answered (v : View) (a : Answer) (ack : Byte) (rb : ReadRegs) : View :=
  { v with
    ack := ack
    rb := rb
    txn := { v.txn with results := v.txn.results ++ a.responses, ok := v.txn.ok && a.acks.all ackOk }
    diagLog := v.diagLog ++ nackReports a.acks
    seq := .ctEnd }

/-- A transaction from its opcode up to `CT_END`. -/
theorem leads_answered {v : View} {a : Answer} (pullup : v.cfg.extPullup = true) (first : v.seq = .ctOpcode .rtsClk)
    (args : v.txn.args.length = sendCount v.txn.desc) (acks : a.acks.length = 1 + sendCount v.txn.desc)
    (responses : a.responses.length = recvCount v.txn.desc) :
    ∃ ack rb, Leads (a.acks.flatMap (acknowledgedWrite v.cfg) ++ a.responses.flatMap (deviceByte v.cfg)) v
      (v.answered a ack rb) := by
  obtain ⟨opcode, rest, eq⟩ : ∃ opcode rest, a.acks = opcode :: rest := List.exists_cons_of_length_pos (by omega)
  have count : rest.length = sendCount v.txn.desc := by rw [eq, List.length_cons] at acks; omega
  have write := leads_acknowledgedWrite (writes_ctOpcode v.txn) pullup first opcode
  obtain ⟨ack, rb, arguments⟩ := leads_arguments (acks := rest) (i := 0) (v := v.acknowledged [opcode] opcode (.ofByte opcode)
    (Seq.afterWrites (sendCount v.txn.desc) (recvCount v.txn.desc) 0)) pullup args ((Nat.zero_add _).trans count) rfl
  rw [acknowledged_acknowledged] at arguments
  obtain ⟨rb', reads⟩ := leads_responses (rs := a.responses) (j := 0)
    (v := v.acknowledged (opcode :: rest) ack rb (Seq.afterReads (recvCount v.txn.desc) 0)) pullup
    ((Nat.zero_add _).trans responses) rfl
  refine ⟨ack, rb', ?_⟩
  rw [View.answered, eq]
  exact (write.append arguments).append reads

/-! ## The ends of a transaction (R166, R169, R173, R218) -/

/-- A transaction has begun, and `rest` wait. -/
def View.begun (v : View) (it : Item) (rest : List Item) : View :=
  { v with
    gate := false
    frame := Frame.idle
    inTxn := true
    txn := { desc := it.desc, args := it.args, results := [], ok := true }
    op := { todo := rest, ok := v.op.ok, post := it.post }
    seq := .ctOpcode .rtsClk }

/-- An admitted operation begins its series as a new operation, before a composite in whose gap it was admitted. -/
theorem exec_view {i : Instr} (wf : i.WellFormed) {s : State} (ready : s.Ready) {it : Item} {rest : List Item}
    (series : expansion s.cfg i = it :: rest) :
    ∃ u, exec i s = .next u ∧ u.view = View.begun { s.view with
      op := Operation.none
      suspended := if s.op.todo = [] then s.suspended else s.op :: s.suspended } it rest :=
  ⟨_, exec_begins wf ready series, rfl⟩

/-- A transaction has ended with the store `syn`; with none waiting the operation returns its result, and a composite put
aside goes on. -/
def View.ended (v : View) (syn : SynState) : View :=
  let op : Operation := { v.op with ok := v.op.ok && v.txn.ok, post := .nothing }
  { v with
    inTxn := false
    gate := true
    seq := .idle
    syn := syn
    op := if v.op.todo = [] then v.suspended.headD op else op
    suspended := if v.op.todo = [] then v.suspended.tail else v.suspended
    resultStream := v.resultStream ++ if v.op.todo = [] then [{ ok := op.ok, bytes := v.txn.results }] else [] }

theorem ctEnd_view {s : State} {syn : SynState} (kept : s.syn.after s.op.post s.txn.results = some syn) :
    ∃ u, ctEnd s = .next u ∧ u.view = s.view.ended syn := by
  rw [ctEnd, kept]
  refine ⟨_, rfl, ?_⟩
  cases todo : s.op.todo with
  | nil => cases suspended : s.suspended <;> simp [returnResult, resume, State.view, View.ended, todo, suspended]
  | cons it rest => simp [returnResult, State.view, View.ended, todo]

theorem leads_ended {v : View} {syn : SynState} (atEnd : v.seq = .ctEnd)
    (kept : v.syn.after v.op.post v.txn.results = some syn) : Leads [.engine] v (v.ended syn) := by
  refine leads_engine fun s view => ?_
  subst view
  have atEnd : s.seq = .ctEnd := atEnd
  simp only [engineStep, atEnd]
  exact ctEnd_view kept

/-- Between two transactions the engine goes on to the next (log 12). -/
theorem leads_begun {v : View} {it : Item} {rest : List Item} (idle : v.seq = .idle) (todo : v.op.todo = it :: rest) :
    Leads [.engine, .engine] v (v.begun it rest) := by
  have toBegin : Leads [.engine] v { v with seq := .ctBegin } := leads_engine fun s view => by
    have idle : s.seq = .idle := (congrArg View.seq view).trans idle
    have todo : s.op.todo = it :: rest := (congrArg (·.op.todo) view).trans todo
    simp only [engineStep, idle, todo]
    exact ⟨_, rfl, congrArg (fun v : View => { v with seq := .ctBegin }) view⟩
  have begins : Leads [.engine] { v with seq := .ctBegin } (v.begun it rest) := leads_engine fun s view => by
    have idle : s.seq = .ctBegin := congrArg View.seq view
    have todo : s.op.todo = it :: rest := (congrArg (·.op.todo) view).trans todo
    simp only [engineStep, idle, todo]
    exact ⟨_, rfl, congrArg (fun v : View => v.begun it rest) view⟩
  exact toBegin.append begins

/-! ## A whole operation (R85, R215) -/

/-- What the store is after a series whose transactions are answered, each of which finds what it keeps (R38, R215). -/
def SynState.afterSeries (y : SynState) : List Item → List Answer → Option SynState
  | it :: items, a :: answers => (y.after it.post a.responses).bind fun y' => y'.afterSeries items answers
  | _, _ => some y

/-- One transaction of a series, from its opcode to its end. -/
theorem leads_transaction {v : View} {it : Item} {rest : List Item} {a : Answer} {syn : SynState}
    (pullup : v.cfg.extPullup = true) (args : it.args.length = sendCount it.desc) (fits : a.fits it)
    (kept : v.syn.after it.post a.responses = some syn) :
    ∃ ack rb, Leads (answeredTxn v.cfg a.acks a.responses) (v.begun it rest)
      (((v.begun it rest).answered a ack rb).ended syn) := by
  obtain ⟨ack, rb, run⟩ := leads_answered (v := v.begun it rest) (a := a) pullup rfl args fits.1 fits.2
  exact ⟨ack, rb, run.append (leads_ended rfl kept)⟩

/-- A series whose first transaction has begun leaves in the store what its transactions keep. -/
theorem leads_series {v : View} {it : Item} {rest : List Item} {answers : List Answer} {syn : SynState}
    (pullup : v.cfg.extPullup = true) (args : ∀ x ∈ it :: rest, x.args.length = sendCount x.desc)
    (fit : answersFit answers (it :: rest)) (kept : v.syn.afterSeries (it :: rest) answers = some syn) :
    ∃ w, Leads (answeredOperation v.cfg answers) (v.begun it rest) w ∧ w.syn = syn := by
  induction rest generalizing v it answers with
  | nil =>
    obtain _ | ⟨a, _ | ⟨a', answers⟩⟩ := answers
    · cases fit
    · obtain ⟨y, after, kept⟩ := Option.bind_eq_some_iff.mp kept
      obtain ⟨ack, rb, run⟩ := leads_transaction (rest := []) pullup (args it (by simp)) fit.1 after
      exact ⟨_, run, Option.some.inj kept⟩
    · cases fit.2
  | cons next rest ih =>
    obtain _ | ⟨a, _ | ⟨a', answers⟩⟩ := answers
    · cases fit
    · cases fit.2
    · obtain ⟨y, after, kept⟩ := Option.bind_eq_some_iff.mp kept
      obtain ⟨ack, rb, run⟩ := leads_transaction (rest := next :: rest) pullup (args it (by simp)) fit.1 after
      obtain ⟨w, run', syn⟩ := ih (v := ((v.begun it (next :: rest)).answered a ack rb).ended y) pullup
        (fun x hx => args x (by simp [hx])) fit.2 kept
      exact ⟨w, (run.append (leads_begun rfl rfl)).append run', syn⟩

end Sys2Proof.Machine
end

section
/-! PROOFS. The Synaptics initialization under a device that clocks every bit (R215, R216, R38): of the answers to its series
only the four queries' responses are kept. -/

namespace Sys2Proof.Machine

/-! ## Series in parts -/

theorem answersFit_append {l m : List Item} {answers : List Answer} (fit : answersFit answers (l ++ m)) :
    ∃ a b, answers = a ++ b ∧ answersFit a l ∧ answersFit b m := by
  induction l generalizing answers with
  | nil => exact ⟨[], answers, rfl, trivial, fit⟩
  | cons it l ih =>
    cases answers with
    | nil => cases fit
    | cons first answers =>
      obtain ⟨a, b, rfl, fitA, fitB⟩ := ih fit.2
      exact ⟨first :: a, b, rfl, ⟨fit.1, fitA⟩, fitB⟩

/-- The responses in the answers, of the transactions that have any. -/
def responsesOf (answers : List Answer) : List (List Byte) := (answers.map Answer.responses).filter fun x => x ≠ []

theorem responsesOf_append (a b : List Answer) : responsesOf (a ++ b) = responsesOf a ++ responsesOf b := by
  simp [responsesOf]

/-- Answers that fit a series hold the responses `responses`, and `keeps` is what the series makes of the store. -/
structure Keeps (items : List Item) (answers : List Answer) (responses : List (List Byte))
    (keeps : SynState → Option SynState) : Prop where
  responses : responsesOf answers = responses
  store : ∀ (y : SynState) (rest : List Item) (more : List Answer),
    y.afterSeries (items ++ rest) (answers ++ more) = (keeps y).bind fun y' => y'.afterSeries rest more

theorem Keeps.append {l m : List Item} {a b : List Answer} {ra rb : List (List Byte)} {f g : SynState → Option SynState}
    (first : Keeps l a ra f) (second : Keeps m b rb g) : Keeps (l ++ m) (a ++ b) (ra ++ rb) fun y => (f y).bind g where
  responses := by rw [responsesOf_append, first.responses, second.responses]
  store y rest more := by
    rw [List.append_assoc, List.append_assoc, first.store, Option.bind_assoc]
    exact congrArg _ (funext fun y' => second.store y' rest more)

/-- One transaction, whose answer has as many responses as its descriptor asks for. -/
theorem keeps_one {it : Item} {answers : List Answer} (fit : answersFit answers [it]) :
    ∃ rs, rs.length = recvCount it.desc ∧ Keeps [it] answers ([rs].filter fun x => x ≠ []) fun y => y.after it.post rs := by
  obtain _ | ⟨a, _ | ⟨a', answers⟩⟩ := answers
  · cases fit
  · exact ⟨a.responses, fit.1.2, rfl, fun y rest more => rfl⟩
  · cases fit.2

/-- Transactions without responses of which nothing is kept. -/
theorem keeps_nothing {items : List Item} {answers : List Answer} (fit : answersFit answers items)
    (silent : ∀ it ∈ items, recvCount it.desc = 0 ∧ it.post = .nothing) : Keeps items answers [] some := by
  induction items generalizing answers with
  | nil =>
    cases answers with
    | nil => exact ⟨rfl, fun _ _ _ => rfl⟩
    | cons a answers => cases fit
  | cons it items ih =>
    obtain ⟨a, b, rfl, fitA, fitB⟩ := answersFit_append (l := [it]) fit
    obtain ⟨⟨none, nothing⟩, silent⟩ := List.forall_mem_cons.mp silent
    obtain ⟨rs, length, one⟩ := keeps_one fitA
    obtain rfl := List.eq_nil_of_length_eq_zero (length.trans none)
    rw [nothing] at one
    exact one.append (ih fitB silent)

/-! ## The series of the initialization -/

/-- A query is answered with one response, and `p` is kept of it (R212). -/
theorem keeps_query {c : Byte} {p : Post} {answers : List Answer} (fit : answersFit answers (queryItems c p)) :
    ∃ r : Response, Keeps (queryItems c p) answers [[r.r0, r.r1, r.r2]] fun y => y.after p [r.r0, r.r1, r.r2] := by
  obtain ⟨a, b, rfl, fitA, fitB⟩ := answersFit_append fit
  obtain ⟨rs, length, getinfo⟩ := keeps_one fitB
  obtain ⟨r0, r1, r2, rfl⟩ := exists_eq_of_length_eq_three (length.trans recvCount_descGetinfo)
  exact ⟨⟨r0, r1, r2⟩, (keeps_nothing fitA (by simp [encodedItems, item])).append getinfo⟩

/-- The mode programming is answered with no response (R214). -/
theorem keeps_modeProgram {p : Post} {answers : List Answer} (fit : answersFit answers (modeProgramItems p)) :
    Keeps (modeProgramItems p) answers [] fun y => y.after p [] := by
  obtain ⟨a, b, rfl, fitA, fitB⟩ := answersFit_append fit
  obtain ⟨rs, length, enable⟩ := keeps_one fitB
  obtain rfl := List.eq_nil_of_length_eq_zero (length.trans recvCount_descEnable)
  exact (keeps_nothing fitA (by simp [setModeItems, encodedItems, item])).append enable

/-- The store after the initialization with the responses `v`, `e`, `r`, `c` (R215). -/
def initialized (v e r c : Response) : SynState where
  version := some v
  extCaps := some e
  resolution := some r
  clickpad := some c
  snapshot := some (parseSnapshot v e r c)
  initDone := true

/-- The initialization is answered with the four queries' responses in order, and the store holds them and their parse,
whatever it held before. -/
theorem keeps_synInit {cfg : Config.Params} {answers : List Answer} (fit : answersFit answers (synInitItems cfg)) :
    ∃ v e r c : Response,
      responsesOf answers = [[v.r0, v.r1, v.r2], [e.r0, e.r1, e.r2], [r.r0, r.r1, r.r2], [c.r0, c.r1, c.r2]] ∧
      ∀ y : SynState, y.afterSeries (synInitItems cfg) answers = some (initialized v e r c) := by
  obtain ⟨_, _, rfl, fit, fitProgram⟩ := answersFit_append fit
  obtain ⟨_, _, rfl, fit, fitClickpad⟩ := answersFit_append fit
  obtain ⟨_, _, rfl, fit, fitResolution⟩ := answersFit_append fit
  obtain ⟨_, _, rfl, fitVersion, fitExtCaps⟩ := answersFit_append fit
  obtain ⟨v, version⟩ := keeps_query fitVersion
  obtain ⟨e, extCaps⟩ := keeps_query fitExtCaps
  obtain ⟨r, resolution⟩ := keeps_query fitResolution
  obtain ⟨c, clickpad⟩ := keeps_query fitClickpad
  have all := (((version.append extCaps).append resolution).append clickpad).append (keeps_modeProgram fitProgram)
  refine ⟨v, e, r, c, all.responses, fun y => ?_⟩
  have store := all.store y [] []
  rw [List.append_nil, List.append_nil] at store
  exact store

/-- After the initialization the snapshot can be read (R38). -/
theorem readSnapshot_initialized {s : State} {v e r c : Response} (h : s.syn = initialized v e r c) :
    applyEvent .readSnapshot s = .next s := by
  rw [applyEvent, readSnapshot, h]
  rfl

/-- Settles O50: the run of the series, and what its transactions keep. -/
theorem synapticsInitializationKeepsTheResponses : Obligations.SynapticsInitializationKeepsTheResponses := by
  unfold Obligations.SynapticsInitializationKeepsTheResponses
  intro s answers ready pullup fit
  obtain ⟨v, e, r, c, responses, kept⟩ := keeps_synInit fit
  obtain ⟨it, rest, series⟩ := expansion_cons s.cfg .synInit
  have sound (x : Item) (hx : x ∈ it :: rest) : x.args.length = sendCount x.desc :=
    (expansion_sound (i := .synInit) rfl s.cfg x (series ▸ hx)).1
  have kept : s.syn.afterSeries (it :: rest) answers = some (initialized v e r c) := series ▸ kept s.syn
  obtain ⟨u, begins, view⟩ := exec_view (i := .synInit) rfl ready series
  obtain ⟨w, leads, syn⟩ := leads_series (v := { s.view with
    op := Operation.none
    suspended := if s.op.todo = [] then s.suspended else s.op :: s.suspended }) pullup sound (series ▸ fit) kept
  obtain ⟨t, run, view⟩ := leads u view
  have syn : t.syn = initialized v e r c := (congrArg View.syn view).trans syn
  exact ⟨u, t, v, e, r, c, begins, run, responses, syn, readSnapshot_initialized syn⟩

end Sys2Proof.Machine
end

section
/-! PROOFS. The two modes (R254): the step lemma is the statement. -/

namespace Sys2Proof.Machine

/-- Settles O51: each agent's step keeps the modes, and so does the edge detector's look (`step_modeInv`). -/
theorem everyStepKeepsTheModesApart : Obligations.EveryStepKeepsTheModesApart := by
  unfold Obligations.EveryStepKeepsTheModesApart
  exact fun s t inv h => step_modeInv h inv

end Sys2Proof.Machine
end

section
/-! PROOFS. Reports (R240, R246, R247): a step makes at most one, and of the six errors only `NackError` changes `ok`; and what
a handler step leaves to the caller (R252, R253). -/

namespace Sys2Proof.Machine

/-! ## What is followed of a state -/

/-- The log, and the result of the transaction so far. -/
def State.account (s : State) : List DiagEvent × Bool := (s.diagLog, s.txn.ok)

/-- Since `s` there is at most one report, and `ok` has changed exactly by a reported `NackError` (R246, R247). -/
def State.Accounts (t s : State) : Prop :=
  ∃ reports : List DiagEvent, t.diagLog = s.diagLog ++ reports ∧ reports.length ≤ 1 ∧
    t.txn.ok = (s.txn.ok && reports.all fun e => !(e.error == .nackError))

theorem State.Accounts.refl (s : State) : s.Accounts s := ⟨[], by simp⟩

theorem State.Accounts.congr {s s' t t' : State} (h : t.Accounts s) (after : t'.account = t.account)
    (before : s.account = s'.account) : t'.Accounts s' := by
  obtain ⟨log, ok⟩ := Prod.mk.inj after
  obtain ⟨log', ok'⟩ := Prod.mk.inj before
  rw [State.Accounts, log, ok, ← log', ← ok']
  exact h

theorem accounts_of_silent {s t : State} (silent : t.account = s.account) : t.Accounts s :=
  (State.Accounts.refl s).congr silent rfl

/-! ## Reports (R247) -/

theorem report_accounts (e : ErrorName) (other : e ≠ .nackError) (c : DiagContext) (i : DiagInfo) (s : State) :
    (report e c i s).Accounts s :=
  ⟨[⟨e, c, i⟩], rfl, Nat.le_refl 1, by simp [other]⟩

theorem check_accounts (e : ErrorName) (other : e ≠ .nackError) (passes : Bool) (c : DiagContext) (i : DiagInfo)
    (s : State) : (check passes e c i s).Accounts s := by
  cases passes with
  | true => exact .refl s
  | false => exact report_accounts e other c i s

/-! ## The engine's primitives -/

theorem waitPoll_accounts (t : Level) (s : State) : (waitPoll t s).Accounts s := by
  obtain h | ⟨-, -, h⟩ := waitPoll_cases t s <;> rw [h]
  · exact accounts_of_silent rfl
  · exact (report_accounts .clockTimeout nofun _ _ _).congr rfl rfl

theorem readBit_accounts (k : Nat) (d : Level) (s : State) : (readBit k d s).Accounts s := by
  unfold readBit
  split
  · exact check_accounts .startBitError nofun _ _ _ s
  split
  · exact accounts_of_silent rfl
  split
  · exact (check_accounts .parityError nofun _ _ _ _).congr rfl rfl
  · exact check_accounts .stopBitError nofun _ _ _ s

theorem readSample_accounts (k : Nat) (s : State) : (readSample k s).Accounts s :=
  (readBit_accounts k _ _).congr rfl rfl

theorem lineControl_accounts (s : State) : (lineControl s).Accounts s :=
  (check_accounts .lineControlError nofun _ _ _ _).congr rfl rfl

/-- The one check whose report changes `ok` (R156, R246). -/
theorem writeCheck_accounts (s : State) : (writeCheck s).Accounts s := by
  unfold writeCheck
  cases ackOk s.wb.ack with
  | true => exact accounts_of_silent (by simp [State.account, check])
  | false => exact ⟨[⟨.nackError, .sync, .byte s.wb.ack⟩], rfl, Nat.le_refl 1, rfl⟩

theorem readEffect_accounts (p : ReadPos) (s : State) : (readEffect p s).Accounts s := by
  cases p with
  | waitLow k w =>
    cases w with
    | enter => exact accounts_of_silent (by simp only [readEffect]; split <;> rfl)
    | poll => exact waitPoll_accounts LOW s
  | sample k => exact readSample_accounts k s
  | waitHigh k w =>
    cases w with
    | enter => exact accounts_of_silent rfl
    | poll => exact waitPoll_accounts HIGH s
  | pulseLow => exact accounts_of_silent rfl
  | pulseHold w => cases w <;> exact accounts_of_silent rfl
  | pulseRel => exact accounts_of_silent rfl

theorem writeBit_account (i : Nat) (s : State) : (writeBit i s).account = s.account := by
  simp [State.account]

theorem writeEffect_accounts (b : Byte) (p : WritePos) (s : State) : (writeEffect b p s).Accounts s := by
  cases p with
  | rtsHold w => cases w <;> exact accounts_of_silent rfl
  | bitWaitLow i w | lcWaitLow w =>
    cases w with
    | enter => exact accounts_of_silent rfl
    | poll => exact waitPoll_accounts LOW s
  | bitDrive i => exact accounts_of_silent (writeBit_account i s)
  | bitWaitHigh i w | lcWaitHigh w =>
    cases w with
    | enter => exact accounts_of_silent rfl
    | poll => exact waitPoll_accounts HIGH s
  | lcSample => exact lineControl_accounts s
  | ack q => exact (readEffect_accounts q s).congr (by simp [State.account, writeEffect]) rfl
  | check => exact writeCheck_accounts s
  | rtsClk | rtsData | rtsRel => exact accounts_of_silent rfl

/-! ## The agents' steps -/

/-- The engine accounts for `ok` but at `CT_BEGIN`, which begins with a new one and reports nothing (R165, R166). -/
theorem engineStep_accounts {s t : State} (h : engineStep s = .next t) :
    t.Accounts s ∨ (s.seq = .ctBegin ∧ t.diagLog = s.diagLog) := by
  obtain ⟨-, -, rfl⟩ | ⟨-, -, rfl⟩ | ⟨-, -, rfl⟩ | ⟨it, rest, begins, -, rfl⟩ | ⟨p, -, rfl⟩ | ⟨i, p, b, -, -, rfl⟩ |
    ⟨j, p, -, rfl⟩ | ⟨-, hc⟩ := engineStep_cases h
  · exact .inl (.refl t)
  · exact .inl (accounts_of_silent rfl)
  · exact .inl (accounts_of_silent rfl)
  · exact .inr ⟨begins, rfl⟩
  · exact .inl ((writeEffect_accounts (opcodeByte s.txn.desc) p s).congr (by simp [State.account]) rfl)
  · exact .inl ((writeEffect_accounts b p s).congr (by simp [State.account]) rfl)
  · exact .inl ((readEffect_accounts p s).congr (by simp [State.account]) rfl)
  · obtain ⟨syn, -, rfl⟩ := ctEnd_cases hc
    exact .inl (accounts_of_silent (by simp [State.account]))

theorem consumeBit_accounts {c : Option Request} {d : Level} {s t : State} (h : consumeBit c d s = .next t) :
    t.Accounts s := by
  obtain ⟨-, rfl⟩ | ⟨-, -, rfl⟩ | ⟨-, rfl⟩ | ⟨-, -, rfl⟩ := consumeBit_cases h
  · exact (check_accounts .startBitError nofun _ _ _ s).congr rfl rfl
  · exact accounts_of_silent rfl
  · exact (check_accounts .parityError nofun _ _ _ s).congr rfl rfl
  · exact (check_accounts .stopBitError nofun _ _ _ s).congr rfl rfl

theorem handlerStep_accounts {c : Option Request} {s t : State} (h : handlerStep c s = .next t) : t.Accounts s := by
  obtain ⟨-, rfl⟩ | ⟨-, -, rfl⟩ | ⟨-, -, u, hu, rfl⟩ := handlerStep_cases h
  · exact .refl t
  · exact accounts_of_silent rfl
  · exact (consumeBit_accounts hu).congr rfl rfl

/-- A request is carried out outside a transaction alone, and reports nothing (R171, R280). -/
theorem requestStep_silent {r : Request} {s t : State} (h : requestStep r s = .next t) :
    s.inTxn = false ∧ t.diagLog = s.diagLog := by
  obtain ⟨i, it, rest, ready, -, -, rfl⟩ | ⟨c, d, k, -, free, -, rfl⟩ := requestStep_cases h
  · exact ⟨ready.noTxn, by simp⟩
  · exact ⟨free, rfl⟩

theorem applyEvent_accounts {e : Event} {s t : State} (h : applyEvent e s = .next t) (mode : s.ModeInv) :
    t.Accounts s ∨ (s.inTxn = false ∧ t.diagLog = s.diagLog) := by
  cases e with
  | device l low => injection h with h; subst h; exact .inl (accounts_of_silent (by simp [State.account]))
  | time d => injection h with h; subst h; exact .inl (accounts_of_silent rfl)
  | engine =>
    refine (engineStep_accounts h).imp_right fun ⟨begins, log⟩ => ⟨?_, log⟩
    rw [mode.txnSeq, begins]; rfl
  | handler c => exact .inl (handlerStep_accounts h)
  | caller r => exact .inr (requestStep_silent h)
  | readSnapshot => rw [readSnapshot_next h]; exact .inl (.refl s)

/-- Settles O55: in a transaction every agent's step accounts for `ok`, and outside one `ok` is not spoken of. -/
theorem onlyNackErrorChangesOk : Obligations.OnlyNackErrorChangesOk := by
  unfold Obligations.OnlyNackErrorChangesOk
  intro s t mode h
  obtain ⟨inputs, choices, u, hu, rfl⟩ := step_event h
  obtain ⟨reports, log, -, ok⟩ | ⟨free, log⟩ := applyEvent_accounts hu (mode.withEvents inputs choices)
  · exact ⟨reports, log, fun _ => ok⟩
  · exact ⟨[], log.trans (List.append_nil _).symm, fun busy => absurd busy (Bool.eq_false_iff.mp free)⟩

/-! ## What the handler leaves to the caller (R252, R253) -/

/-- What the interrupted caller has of the state, and the configuration and the results, are the same in two states. -/
structure State.SameCaller (t s : State) : Prop where
  seq : t.seq = s.seq
  txn : t.txn = s.txn
  wb : t.wb = s.wb
  rb : t.rb = s.rb
  op : t.op = s.op
  suspended : t.suspended = s.suspended
  gate : t.gate = s.gate
  inTxn : t.inTxn = s.inTxn
  syn : t.syn = s.syn
  configured : t.configured = s.configured
  waitT0 : t.waitT0 = s.waitT0
  resultStream : t.resultStream = s.resultStream

theorem consumeBit_sameCaller {c : Option Request} {d : Level} {s t : State} (h : consumeBit c d s = .next t) :
    t.SameCaller s := by
  obtain ⟨-, rfl⟩ | ⟨-, -, rfl⟩ | ⟨-, rfl⟩ | ⟨-, -, rfl⟩ := consumeBit_cases h <;> constructor <;> simp

theorem handlerStep_sameCaller {c : Option Request} {s t : State} (h : handlerStep c s = .next t) : t.SameCaller s := by
  obtain ⟨-, rfl⟩ | ⟨-, -, rfl⟩ | ⟨-, -, u, hu, rfl⟩ := handlerStep_cases h
  · constructor <;> rfl
  · constructor <;> rfl
  · obtain ⟨seq, txn, wb, rb, op, suspended, gate, inTxn, syn, configured, waitT0, resultStream⟩ := consumeBit_sameCaller hu
    exact ⟨seq, txn, wb, rb, op, suspended, gate, inTxn, syn, configured, waitT0, resultStream⟩

/-- The handler returns (R121, R253). -/
theorem handlerStep_leaves {c : Option Request} {s t : State} (h : handlerStep c s = .next t)
    (outside : s.inHandler = false) : t.inHandler = false := by
  obtain ⟨-, rfl⟩ | ⟨-, -, rfl⟩ | ⟨-, -, u, -, rfl⟩ := handlerStep_cases h
  · exact outside
  · rfl
  · rfl

/-- Settles O20: the caller's part and the environment's are the same, the handler is left, and one check at most reports. -/
theorem handlerStepLeavesTheCallerUntouched : Obligations.HandlerStepLeavesTheCallerUntouched := by
  unfold Obligations.HandlerStepLeavesTheCallerUntouched
  intro s t c h outside
  obtain ⟨seq, txn, wb, rb, op, suspended, gate, inTxn, syn, configured, waitT0, resultStream⟩ := handlerStep_sameCaller h
  obtain ⟨link, now, clkDevLow, dataDevLow⟩ := handlerStep_sameEnvironment h
  obtain ⟨reports, log, few, -⟩ := handlerStep_accounts h
  exact ⟨seq, txn, wb, rb, op, suspended, gate, inTxn, handlerStep_leaves h outside, syn, link, configured, now, waitT0,
    resultStream, clkDevLow, dataDevLow, reports, log, few⟩

end Sys2Proof.Machine
end

section
/-! PROOFS. Faults (R131, R134, R248, R42): which agent's step can answer which fault, and that the invariant leaves only the
breaches of contract. -/

namespace Sys2Proof.Machine

/-! ## Elements that the engine reads (R33, R38, R215) -/

theorem keep_covers (y : SynState) (q : QueryName) (r : Response) : (y.keep q r).Covers y := by
  cases q with
  | version => exact ⟨fun _ => rfl, id, id, id, id⟩
  | extCaps => exact ⟨id, fun _ => rfl, id, id, id⟩
  | resolution => exact ⟨id, id, fun _ => rfl, id, id⟩
  | clickpad => exact ⟨id, id, id, fun _ => rfl, id⟩

/-- One of the four raw responses is unwritten. -/
def SynState.Lacks (y : SynState) : Prop :=
  y.version = none ∨ y.extCaps = none ∨ y.resolution = none ∨ y.clickpad = none

theorem SynState.Covers.lacks {y y' : SynState} (h : y'.Covers y) (lacks : y'.Lacks) : y.Lacks := by
  have unwritten {x x' : Option Response} (covers : x.isSome → x'.isSome) (none : x' = .none) : x = .none :=
    Option.not_isSome_iff_eq_none.mp fun some => Option.not_isSome_iff_eq_none.mpr none (covers some)
  exact lacks.imp (unwritten h.version) (.imp (unwritten h.extCaps) (.imp (unwritten h.resolution) (unwritten h.clickpad)))

/-- With all four raw responses written a parse has its value, so one that has none lacks one of them (R215). -/
theorem lacks_of_parse {y : SynState} (h : y.parse = none) : y.Lacks := by
  cases hv : y.version with
  | none => exact .inl hv
  | some v =>
  cases he : y.extCaps with
  | none => exact .inr (.inl he)
  | some e =>
  cases hr : y.resolution with
  | none => exact .inr (.inr (.inl hr))
  | some r =>
  cases hc : y.clickpad with
  | none => exact .inr (.inr (.inr hc))
  | some c =>
  have parsed := parse_eq_some.mpr ⟨v, e, r, c, ⟨hv, he, hr, hc⟩, rfl⟩
  cases parsed.symm.trans h

/-- Three response bytes are read, what comes after them is not (R215). -/
theorem after_of_three_le {results : List Byte} (three : 3 ≤ results.length) (y : SynState) (q : QueryName) :
    ∃ r, y.after (.keep q) results = some (y.keep q r) ∧ y.after (.keepAndParse q) results = (y.keep q r).parse :=
  match results, three with
  | r0 :: r1 :: r2 :: _, _ => ⟨⟨r0, r1, r2⟩, rfl, rfl⟩

/-- What a transaction's end finds unwritten: one of three response bytes, or one of the raw responses of a parse (R215). -/
theorem unwritten_of_after {y : SynState} {p : Post} {results : List Byte} (h : y.after p results = none) :
    ∃ q, (p = .keep q ∧ results.length < 3) ∨ (p = .keepAndParse q ∧ (results.length < 3 ∨ y.Lacks)) := by
  cases p with
  | nothing => cases h
  | initDone => cases h
  | keep q =>
    refine ⟨q, .inl ⟨rfl, Nat.lt_of_not_le fun three => ?_⟩⟩
    obtain ⟨r, kept, -⟩ := after_of_three_le three y q
    cases kept.symm.trans h
  | keepAndParse q =>
    refine ⟨q, .inr ⟨rfl, (Nat.lt_or_ge results.length 3).imp_right fun three => ?_⟩⟩
    obtain ⟨r, -, parsed⟩ := after_of_three_le three y q
    exact (keep_covers y q r).lacks (lacks_of_parse (parsed.symm.trans h))

/-! ## The faults of each agent's step -/

/-- The engine faults by the read of an argument, or of what is kept at a transaction's end (R42, R215). -/
theorem engineStep_fault {s : State} {f : Fault} (h : engineStep s = .fault f) :
    f = .noValue ∧
    ((∃ i p, s.seq = .ctArg i p ∧ s.txn.args[i]? = none) ∨
      (s.seq = .ctEnd ∧ s.syn.after s.op.post s.txn.results = none)) := by
  unfold engineStep at h
  split at h
  · cases h
  · split at h <;> cases h
  · cases h
  · next i p hs =>
    obtain ⟨none, rfl⟩ | ⟨b, -, h⟩ := readElement_fault h
    · exact ⟨rfl, .inl ⟨i, p, hs, none⟩⟩
    · cases h
  · cases h
  · next hs =>
    obtain ⟨none, rfl⟩ | ⟨y, -, h⟩ := readElement_fault h
    · exact ⟨rfl, .inr ⟨hs, none⟩⟩
    · cases h

/-- From the invariant the engine finds every element written that it reads. -/
theorem engineStep_ne_fault {s : State} (mode : s.ModeInv) (txn : s.TxnInv) (f : Fault) : engineStep s ≠ .fault f := by
  intro h
  obtain ⟨-, ⟨i, p, hs, none⟩ | ⟨hs, none⟩⟩ := engineStep_fault h
  · have busy : s.inTxn = true := mode.busy_iff.mpr (by rw [hs]; rfl)
    have count := txn.position
    rw [hs] at count
    have missing := List.getElem?_eq_none_iff.mp none
    rw [txn.argCount busy] at missing
    exact Nat.not_le_of_lt count.1 missing
  · have busy : s.inTxn = true := mode.busy_iff.mpr (by rw [hs]; rfl)
    have count := txn.position
    rw [hs] at count
    have ready := txn.ready
    rw [State.posts, busy] at ready
    obtain ⟨y, written, -⟩ := ready.2 s.txn.results (count.symm ▸ txn.post busy)
    cases written.symm.trans none

theorem consumeBit_fault {c : Option Request} {d : Level} {s : State} {f : Fault} (h : consumeBit c d s = .fault f) :
    (f = .reentrantTransaction ∧ ∃ r, c = some r) ∨ (f = .bitIndexOutOfRange ∧ 11 ≤ s.frame.bitIndex.toNat) := by
  unfold consumeBit at h
  split at h
  · cases h
  split at h
  · cases h
  split at h
  · cases h
  split at h
  · cases c with
    | none => cases h
    | some r => injection h with h; exact .inl ⟨h.symm, r, rfl⟩
  · injection h with h; exact .inr ⟨h.symm, by omega⟩

/-- The handler faults by a request from inside the delivery, or at a position that no frame has (R131, R134). -/
theorem handlerStep_fault_cases {c : Option Request} {s : State} {f : Fault} (h : handlerStep c s = .fault f) :
    (f = .reentrantTransaction ∧ ∃ r, c = some r) ∨ (f = .bitIndexOutOfRange ∧ 11 ≤ s.frame.bitIndex.toNat) := by
  unfold handlerStep at h
  split at h
  · split at h
    · cases h
    · next g hg =>
      injection h with h
      subst h
      unfold receiveStep at hg
      split at hg
      · cases hg
      · exact (consumeBit_fault hg).imp_right fun ⟨hf, beyond⟩ => ⟨hf, by simpa using beyond⟩
    · cases h
  · cases h

theorem admission_fault {s : State} {k : State → Result} {f : Fault} (h : admission s k = .fault f)
    (outside : s.inHandler = false) : k s = .fault f := by
  unfold admission at h
  rw [outside, if_neg Bool.false_ne_true] at h
  split at h
  · cases h
  split at h
  · cases h
  · exact h

theorem exec_ne_fault {s : State} (outside : s.inHandler = false) (i : Instr) (f : Fault) : exec i s ≠ .fault f := by
  intro h
  by_cases wf : i.WellFormed
  · obtain ⟨it, rest, series⟩ := expansion_cons s.cfg i
    rw [exec_eq_startOperation wf, series] at h
    cases admission_fault h outside
  · cases i with
    | command desc args =>
      have miscounted : args.length ≠ sendCount desc := by simpa [Instr.WellFormed, Instr.wellFormed] using wf
      rw [exec, execCommand, if_neg miscounted] at h
      cases admission_fault h outside
    | _ => exact wf rfl

/-- Outside the handler a request is carried out or refused (R131, R248). -/
theorem requestStep_ne_fault {s : State} (outside : s.inHandler = false) (r : Request) (f : Fault) :
    requestStep r s ≠ .fault f := by
  intro h
  cases r with
  | op w =>
    simp only [requestStep] at h
    split at h
    · exact exec_ne_fault outside _ f h
    · next e _ => cases e; cases admission_fault (k := fun _ => .refused .argCountMismatch) h outside
  | begin c d k =>
    rw [requestStep, execBegin, outside, if_neg Bool.false_ne_true] at h
    split at h
    · cases h
    split at h <;> cases h
  | writeByte _ | readByteSync | link _ =>
    rw [requestStep, notAnOperation, outside, if_neg Bool.false_ne_true] at h
    cases h

/-- A read of the snapshot faults before the initialization alone (R38). -/
theorem readSnapshot_fault {s : State} {f : Fault} (h : readSnapshot s = .fault f) (txn : s.TxnInv) :
    f = .noValue ∧ s.syn.initDone = false := by
  refine ⟨?_, Bool.eq_false_iff.mpr fun done => ?_⟩
  · obtain ⟨-, hf⟩ | ⟨v, -, h⟩ := readElement_fault h
    · exact hf
    · cases h
  · obtain ⟨-, reads⟩ := (snapshotReadNeedsTheInitialization s).2 txn done
    cases reads.symm.trans h

/-! ## The faults of a step -/

/-- A step that faults is its event's, on a state that differs in the model's own fields only (R63). -/
theorem step_fault {s : State} {f : Fault} (h : step s = .fault f) :
    ∃ inputs choices, applyEvent (nextEvent s).1 { s with inputs := inputs, choices := choices } = .fault f := by
  have faults : applyEvent (nextEvent s).1 (nextEvent s).2 = .fault f := by
    unfold step at h
    cases hu : applyEvent (nextEvent s).1 (nextEvent s).2 with
    | next u => rw [hu] at h; cases h
    | fault g => rwa [hu] at h
    | refused r => rw [hu] at h; cases h
  obtain ⟨e, rest, -, he⟩ | ⟨-, he⟩ := nextEvent_snd s
  · rw [he] at faults ⊢
    exact ⟨rest, s.choices, faults⟩
  · rw [he] at faults ⊢
    exact ⟨s.inputs, s.choices + 1, faults⟩

theorem applyEvent_fault {e : Event} {s : State} {f : Fault} (h : applyEvent e s = .fault f) (inv : s.Inv) :
    (f = .reentrantTransaction ∧ ∃ r, e = .handler (some r)) ∨
    (f = .noValue ∧ e = .readSnapshot ∧ s.syn.initDone = false) := by
  cases e with
  | device l low => cases h
  | time d => cases h
  | engine => exact absurd h (engineStep_ne_fault inv.mode inv.txn f)
  | handler c =>
    obtain ⟨hf, r, rfl⟩ | ⟨-, beyond⟩ := handlerStep_fault_cases h
    · exact .inl ⟨hf, r, rfl⟩
    · have legal := inv.frame.index
      omega
  | caller r => exact absurd h (requestStep_ne_fault inv.mode.handlerOff r f)
  | readSnapshot =>
    obtain ⟨hf, early⟩ := readSnapshot_fault h inv.txn
    exact .inr ⟨hf, rfl, early⟩

/-- Settles O54, agent by agent; and the engine's two reads of an unwritten element, in any state. -/
theorem onlyContractBreachesFault : Obligations.OnlyContractBreachesFault := by
  unfold Obligations.OnlyContractBreachesFault
  refine ⟨fun s f inv h => ?_, fun s f h => ?_⟩
  · obtain ⟨inputs, choices, faults⟩ := step_fault h
    have before : { s with inputs := inputs, choices := choices }.Inv :=
      inv.of_modeInv (inv.mode.withEvents inputs choices)
    have breach := applyEvent_fault faults before
    exact breach
  · obtain ⟨hf, ⟨i, p, hs, none⟩ | ⟨hs, none⟩⟩ := engineStep_fault h
    · exact ⟨hf, .inl ⟨i, p, hs, List.getElem?_eq_none_iff.mp none⟩⟩
    · exact ⟨hf, .inr ⟨hs, unwritten_of_after none⟩⟩

end Sys2Proof.Machine
end

section
/-! PROOFS. A frame with one data bit flipped (R242): the byte it assembles differs at that bit, and its parity with it. -/

namespace Sys2Proof.Machine

/-- Where two bytes differ at one bit alone, their parities differ once that bit is counted (R25). -/
theorem prefixParity_flip {a b : Byte} {n : Nat}
    (flip : ∀ k < 8, bitOf a k = (bitOf b k ^^ decide (k = n))) {m : Nat} (hm : m ≤ 8) :
    prefixParity a m = (prefixParity b m ^^ decide (n < m)) := by
  induction m with
  | zero => rfl
  | succ m ih =>
    rw [prefixParity, prefixParity, ih (by omega), flip m (by omega)]
    obtain before | rfl | later : n < m ∨ n = m ∨ m < n := Nat.lt_trichotomy n m
    · simp [before, Nat.ne_of_gt before, Nat.lt_succ_of_lt before]
    · simp
    · simp [Nat.ne_of_lt later, Nat.not_lt_of_gt later, show ¬ n < m + 1 by omega]

/-- The frame of `b` with payload bit `n` flipped, its parity bit left as it is. -/
def flippedFrame (b : Byte) (n : Nat) : List Level := (frameBits b).set (n + 1) (!frameBit b (n + 1))

theorem frameBit_payload (b : Byte) {k : Nat} (hk : k < 8) : frameBit b (k + 1) = bitOf b k := by
  rw [frameBit, if_neg (by omega), if_pos (by omega), Nat.add_sub_cancel]

theorem length_frameBits (b : Byte) : (frameBits b).length = 11 := by
  rw [frameBits, List.length_map, List.length_range]

theorem flippedFrame_getD (b : Byte) (n : Nat) {k : Nat} (hk : k < 11) :
    (flippedFrame b n).getD k false = (frameBit b k ^^ decide (k = n + 1)) := by
  have own := frameBits_getD b hk
  simp only [List.getD_eq_getElem?_getD] at own
  rw [flippedFrame, List.getD_eq_getElem?_getD, List.getElem?_set]
  split
  · next here => simp [← here, length_frameBits, show n + 1 < 11 by omega]
  · next elsewhere => simp [own, Ne.symm elsewhere]

theorem bitOf_byteOfBits_flippedFrame (b : Byte) (n : Nat) {k : Nat} (hk : k < 8) :
    bitOf (byteOfBits (flippedFrame b n)) k = (bitOf b k ^^ decide (k = n)) := by
  refine (bitOf_bytePrefix (flippedFrame b n) 8 hk).trans ?_
  rw [decide_eq_true hk, Bool.true_and, flippedFrame_getD b n (by omega), frameBit_payload b hk]
  simp

theorem byteOfBits_flippedFrame_ne (b : Byte) {n : Nat} (hn : n < 8) : byteOfBits (flippedFrame b n) ≠ b := by
  intro same
  have flipped := bitOf_byteOfBits_flippedFrame b n hn
  rw [same] at flipped
  simp at flipped

/-- The check fails: the byte's parity has changed, and the parity bit has not (R76, R242). -/
theorem parityOk_flippedFrame (b : Byte) {n : Nat} (hn : n < 8) :
    parityOk (byteParity (byteOfBits (flippedFrame b n)) ^^ txParity b) = false := by
  have parity : byteParity (byteOfBits (flippedFrame b n)) = !byteParity b := by
    rw [byteParity, prefixParity_flip (fun k hk => bitOf_byteOfBits_flippedFrame b n hk) (Nat.le_refl 8),
      decide_eq_true hn, Bool.xor_true, byteParity]
  rw [parity, txParity]
  cases byteParity b <;> rfl

theorem frameReports_flippedFrame (c : DiagContext) (b : Byte) {n : Nat} (hn : n < 8) :
    frameReports c (flippedFrame b n) =
      [{ error := .parityError, context := c, info := .byte (byteOfBits (flippedFrame b n)) }] := by
  have start : (flippedFrame b n).getD 0 false = false := flippedFrame_getD b n (by omega)
  have parity : (flippedFrame b n).getD 9 false = txParity b := by
    rw [flippedFrame_getD b n (by omega), decide_eq_false (by omega), Bool.xor_false]; rfl
  have stop : (flippedFrame b n).getD 10 false = true := by
    rw [flippedFrame_getD b n (by omega), decide_eq_false (by omega), Bool.xor_false]; rfl
  rw [frameReports, start, parity, stop, parityOk_flippedFrame b hn]
  rfl

/-- Settles O23: the frame is the byte's own, and with payload bit `k - 1` flipped it is `flippedFrame b (k - 1)`. -/
theorem flippedDataBitIsAParityErrorAlone : Obligations.FlippedDataBitIsAParityErrorAlone := by
  unfold Obligations.FlippedDataBitIsAParityErrorAlone
  refine fun b c => ⟨length_frameBits b, byteOfBits_frameBits b, frameReports_frameBits c b, fun k h1 h8 => ?_⟩
  obtain ⟨n, rfl⟩ : ∃ n, k = n + 1 := Nat.exists_eq_add_of_le' h1
  exact ⟨byteOfBits_flippedFrame_ne b h8, frameReports_flippedFrame c b h8⟩

end Sys2Proof.Machine
end

section
/-! PROOFS. `begin` (R280, R282), and the block before the first one (R281, R120). -/

namespace Sys2Proof.Machine

/-! ## `begin` (R280) -/

section
variable {s : State} (outside : s.inHandler = false)
include outside

theorem execBegin_inTxn (busy : s.inTxn = true) (c d : PinId) (k : CallbackId) :
    execBegin c d k s = .refused .beginDuringTransaction := by
  rw [execBegin, outside, if_neg Bool.false_ne_true, if_pos busy]

variable (free : s.inTxn = false)
include free

theorem execBegin_samePin (c : PinId) (k : CallbackId) : execBegin c c k s = .refused .samePin := by
  rw [execBegin, outside, free, if_neg Bool.false_ne_true, if_neg Bool.false_ne_true, if_pos rfl]

theorem execBegin_admitted {c d : PinId} (differ : c ≠ d) (k : CallbackId) : execBegin c d k s = .next (setUp c d k s) := by
  rw [execBegin, outside, free, if_neg Bool.false_ne_true, if_neg Bool.false_ne_true, if_neg differ]

end

/-- Settles O26: `begin` is admitted, and `setUp` is the state written out. -/
theorem beginSetsTheBlockUp : Obligations.BeginSetsTheBlockUp := by
  unfold Obligations.BeginSetsTheBlockUp
  exact fun s c d k outside free differ => execBegin_admitted outside free differ k

/-- Settles O27, by the three checks of `begin` in turn. -/
theorem beginIsRefusedOutOfPlace : Obligations.BeginIsRefusedOutOfPlace := by
  unfold Obligations.BeginIsRefusedOutOfPlace
  refine fun s c d k => ⟨fun busy outside _ => ?_, fun free outside same => ?_, fun _ inside _ => ?_⟩
  · exact execBegin_inTxn outside busy c d k
  · subst same
    exact execBegin_samePin outside free c k
  · exact requestStep_inHandler inside _

/-! ## Before the first `begin` (R281) -/

theorem admission_unconfigured {s : State} (outside : s.inHandler = false) (unconfigured : s.configured = false)
    (k : State → Result) : admission s k = .refused .notConfigured := by
  rw [admission, outside, unconfigured, if_neg Bool.false_ne_true]; rfl

/-- An operation is the start of its expansion, and that asks for `configured = 1` (R171). -/
theorem exec_unconfigured {s : State} {i : Instr} (wf : i.WellFormed) (outside : s.inHandler = false)
    (unconfigured : s.configured = false) : exec i s = .refused .notConfigured :=
  (exec_eq_startOperation wf s).trans (admission_unconfigured outside unconfigured _)

section
variable {s : State} (before : s.BeforeBegin)
include before

theorem State.BeforeBegin.withEvents (inputs : List Event) (choices : Nat) :
    { s with inputs := inputs, choices := choices }.BeforeBegin := { before with }

theorem State.BeforeBegin.setDevLow (l : Line) (low : Bool) : (s.setDevLow l low).BeforeBegin := by
  cases l with
  | clk => exact { before with }
  | data => exact { before with }

/-- An edge is recorded only once configured, so the detector's look leaves none pending (R120). -/
theorem latchEdge_beforeBegin (s0 : State) : (latchEdge s0 s).BeforeBegin :=
  { before with
    noEdge := by
      have unrecorded : s.latches = false := by rw [State.latches, before.notConfigured, Bool.false_and]
      rw [latchEdge_edgePending, before.noEdge, unrecorded, Bool.and_false, Bool.false_or] }

theorem State.BeforeBegin.handler_disabled : s.handlerEnabled = false := by
  rw [State.handlerEnabled, before.noEdge, Bool.false_and, Bool.false_and]

/-- No operation runs, so the engine stays at `IDLE` (R37). -/
theorem State.BeforeBegin.engine_idles : engineStep s = .next s := by
  rw [engineStep, before.seqIdle, before.noOperation]; rfl

/-- No operation is admitted, so a request that is carried out is `begin` (R171, R280). -/
theorem State.BeforeBegin.request_begins {r : Request} {t : State} (h : requestStep r s = .next t) :
    ∃ c d k, r = .begin c d k ∧ t.configured = true := by
  obtain ⟨i, it, rest, ready, -⟩ | ⟨c, d, k, ⟨-, isBegin⟩, -, -, rfl⟩ := requestStep_cases h
  · exact absurd (before.notConfigured.symm.trans ready.configured) Bool.false_ne_true
  · exact ⟨c, d, k, isBegin, rfl⟩

/-- Every event but `begin` leaves a state before `begin`: the block's agents do nothing, and the environment writes its own
part only (R281). -/
theorem applyEvent_beforeBegin {e : Event} {t : State} (h : applyEvent e s = .next t) :
    t.BeforeBegin ∨ ∃ c d k, e = .caller (.begin c d k) ∧ t.configured = true := by
  cases e with
  | device l low => injection h with h; exact .inl (h ▸ before.setDevLow l low)
  | time d => injection h with h; exact .inl (h ▸ { before with })
  | engine => injection before.engine_idles.symm.trans h with same; exact .inl (same ▸ before)
  | handler c =>
    injection (handlerStep_disabled before.handler_disabled c).symm.trans h with same
    exact .inl (same ▸ before)
  | caller r =>
    obtain ⟨c, d, k, rfl, configured⟩ := before.request_begins h
    exact .inr ⟨c, d, k, rfl, configured⟩
  | readSnapshot => exact .inl (readSnapshot_next h ▸ before)

/-- And so a step of the machine. -/
theorem step_beforeBegin {t : State} (h : step s = .next t) :
    t.BeforeBegin ∨ ∃ c d k, (nextEvent s).1 = .caller (.begin c d k) ∧ t.configured = true := by
  obtain ⟨inputs, choices, u, hu, rfl⟩ := step_event h
  exact (applyEvent_beforeBegin (before.withEvents inputs choices) hu).imp_left fun unset => latchEdge_beforeBegin unset _

end

/-- Settles O28: the admission asks for `configured = 1`, and a step before `begin` is taken agent by agent. -/
theorem beforeBeginOperationsAreRefusedAndEdgesLost : Obligations.BeforeBeginOperationsAreRefusedAndEdgesLost := by
  unfold Obligations.BeforeBeginOperationsAreRefusedAndEdgesLost
  exact ⟨fun s i before wf => exec_unconfigured wf before.noHandler before.notConfigured,
    fun _ _ before => step_beforeBegin before⟩

end Sys2Proof.Machine
end

section
/-! PROOFS. The commands (R190-R197) begin their transaction, and where an operation is refused (R171, R172, R248). -/

namespace Sys2Proof.Machine

/-! ## Admitted operations -/

/-- Settles O30: the expansion of each is the one item of its descriptor. -/
theorem commandsWithoutArgumentBegin : Obligations.CommandsWithoutArgumentBegin := by
  unfold Obligations.CommandsWithoutArgumentBegin
  intro s i desc ready listed
  simp only [List.mem_cons, List.not_mem_nil, or_false, Prod.mk.injEq] at listed
  obtain ⟨rfl, rfl⟩ | ⟨rfl, rfl⟩ | ⟨rfl, rfl⟩ | ⟨rfl, rfl⟩ | ⟨rfl, rfl⟩ := listed <;>
    exact exec_begins (it := item _ _) rfl ready rfl

/-- Settles O31: the expansion of each is the one item of its descriptor and its argument. -/
theorem commandsWithOneArgumentBegin : Obligations.CommandsWithOneArgumentBegin := by
  unfold Obligations.CommandsWithOneArgumentBegin
  intro s x i desc ready listed
  simp only [List.mem_cons, List.not_mem_nil, or_false, Prod.mk.injEq] at listed
  obtain ⟨rfl, rfl⟩ | ⟨rfl, rfl⟩ := listed <;>
    exact exec_begins (it := item _ _) rfl ready rfl

/-- Where operations are admitted, words with a wrong argument count are refused as that (R171). -/
theorem exec_command_miscounted {s : State} (ready : s.Ready) {desc : Descriptor} {args : List Byte}
    (miscounted : args.length ≠ sendCount desc) : exec (.command desc args) s = .refused .argCountMismatch := by
  rw [exec, execCommand, if_neg miscounted, admit_ready ready]

/-- Settles O32, by whether the arguments are as many as the descriptor's high nibble says. -/
theorem genericCommandBeginsWithItsArgumentCount : Obligations.GenericCommandBeginsWithItsArgumentCount := by
  unfold Obligations.GenericCommandBeginsWithItsArgumentCount
  intro s desc args ready
  rw [← sendCount_eq_div]
  exact ⟨fun count => exec_begins (wellFormed_command_iff.mpr count) ready rfl, exec_command_miscounted ready⟩

/-! ## Refusals -/

theorem admission_busy {s : State} (outside : s.inHandler = false) (configured : s.configured = true)
    (busy : s.inTxn = true) (k : State → Result) : admission s k = .refused .transactionBusy := by
  rw [admission, outside, configured, busy]; rfl

/-- In the gap of a composite an operation is admitted, and the composite is put aside (log 13). -/
theorem exec_in_gap {s : State} (ready : s.Ready) (waiting : s.op.todo ≠ []) {i : Instr} (wf : i.WellFormed) :
    ∃ t, exec i s = .next t ∧ t.inTxn = true ∧ t.suspended = s.op :: s.suspended := by
  obtain ⟨it, rest, series⟩ := expansion_cons s.cfg i
  exact ⟨_, exec_begins wf ready series, rfl, if_neg waiting⟩

theorem requestStep_miscounted {s : State} (ready : s.Ready) {desc : Descriptor} {args : List Byte}
    (miscounted : args.length ≠ sendCount desc) :
    requestStep (.op (.descriptor desc args)) s = .refused .argCountMismatch := by
  simp only [requestStep, decode_descriptor_of_wrong_count miscounted]
  exact admit_ready ready fun _ => .refused .argCountMismatch

theorem notAnOperation_refused {s : State} (outside : s.inHandler = false) :
    notAnOperation s = .refused .notAnOperation := by
  rw [notAnOperation, outside]; rfl

/-- Settles O34, by the conditions of the admission one by one. -/
theorem operationsOutOfPlaceAreRefused : Obligations.OperationsOutOfPlaceAreRefused := by
  unfold Obligations.OperationsOutOfPlaceAreRefused
  refine ⟨fun s i wf outside => ⟨fun unconfigured _ => exec_unconfigured wf outside unconfigured, fun configured busy => ?_,
    fun configured free waiting => exec_in_gap ⟨configured, free, outside⟩ waiting wf⟩, fun s desc args ready miscounted => ?_,
    fun s outside => ?_⟩
  · exact (exec_eq_startOperation wf s).trans (admission_busy outside configured busy _)
  · exact requestStep_miscounted ready (sendCount_eq_div desc ▸ miscounted)
  · exact ⟨fun _ => notAnOperation_refused outside, notAnOperation_refused outside, fun _ => notAnOperation_refused outside⟩

end Sys2Proof.Machine
end

section
/-! PROOFS. The engine's step at the primitives of a write (R150-R156) and of a read (R158-R162), wherever in a transaction
they stand, with the whole next state. -/

namespace Sys2Proof.Machine

/-! ## The engine's step in a write and in a read (R37, R165) -/

theorem engineStep_writing {s : State} {b : Byte} {p : WritePos} (h : s.writing = some (b, p)) :
    engineStep s = .next (advance (writeDone p s) (writeEffect b p s)) := by
  obtain ⟨hq, byte⟩ | ⟨i, hq, written⟩ := writing_cases h
  · rw [engineStep_ctOpcode hq, byte]
  · simp only [engineStep, hq, written, readElement_some]

/-- Where the primitive is done, the step is the primitive and the move to the next position. -/
theorem engineStep_writes {s : State} {b : Byte} {p : WritePos} (h : s.writing = some (b, p)) (done : writeDone p s = true) :
    engineStep s = .next { writeEffect b p s with seq := s.seq.next (sendCount s.txn.desc) (recvCount s.txn.desc) } := by
  rw [engineStep_writing h, done, advance, if_pos rfl, writeEffect_seq, writeEffect_desc]

/-- A read in progress is the acknowledgement's, within a write, or a response's (R156, R168). -/
theorem reading_cases {s : State} {p : ReadPos} (mode : s.ModeInv) (txn : s.TxnInv) (h : s.reading = some p) :
    (∃ b, s.writing = some (b, .ack p)) ∨ ∃ j, s.seq = .ctResp j p := by
  unfold State.reading at h
  split at h
  · next q hq => cases h; exact .inl ⟨_, writing_ctOpcode hq⟩
  · next i q hq =>
    cases h
    obtain ⟨b, written⟩ := argument_written mode txn hq
    exact .inl ⟨b, by rw [writing_ctArg hq, written]; rfl⟩
  · next j q hq => cases h; exact .inr ⟨j, hq⟩
  · cases h

section
variable {s : State} {p : ReadPos} (mode : s.ModeInv) (txn : s.TxnInv) (h : s.reading = some p) (before : p ≠ .pulseRel)
include mode txn h before

theorem engineStep_reading : engineStep s = .next (advance (readDone p s) (readEffect p s)) := by
  obtain ⟨b, hw⟩ | ⟨j, hq⟩ := reading_cases mode txn h
  · rw [engineStep_writing hw, writeEffect, takeAck_of_ne before]; rfl
  · rw [engineStep_ctResp hq, takeResponse_of_ne before]

theorem engineStep_reads (done : readDone p s = true) :
    engineStep s = .next { readEffect p s with seq := s.seq.next (sendCount s.txn.desc) (recvCount s.txn.desc) } := by
  have desc : (readEffect p s).txn.desc = s.txn.desc := by rw [readEffect_txn]
  rw [engineStep_reading mode txn h before, done, advance, if_pos rfl, readEffect_seq, desc]

end

/-! ## A write (R150-R156) -/

/-- Settles O36, position by position of the request-to-send. -/
theorem requestToSendHoldsTheClockThenLowersData : Obligations.RequestToSendHoldsTheClockThenLowersData := by
  unfold Obligations.RequestToSendHoldsTheClockThenLowersData
  refine ⟨rfl, fun s b => ⟨fun h => engineStep_writes h rfl, fun h => engineStep_writes h rfl, fun h early => ?_,
    fun h passed => ?_, fun h => engineStep_writes h rfl, fun h => engineStep_writes h rfl⟩⟩
  · rw [engineStep_writing h, writeDone, pollDelay_done, decide_eq_false (Nat.not_le.mpr early)]
    rfl
  · exact engineStep_writes h ((pollDelay_done _ s).trans (decide_eq_true passed))

theorem setData_eq (v : Level) (s : State) : setData v s = { s with dataPad := padOfBit v } := by
  cases v <;> rfl

/-- A drive's whole effect (R152-R154), given that the parity register holds the parity bit when that is sent. -/
theorem writeBit_eq {s : State} {i : Nat} (hi : i ≤ 9) (parity : i = 8 → s.wb.parity = txParity s.wb.byte) :
    writeBit i s = { s with
      dataPad := padOfBit (frameBit s.wb.byte (i + 1))
      wb := { s.wb with parity := s.wb.parity ^^ (decide (i < 8) && bitOf s.wb.byte i) } } := by
  rw [← writeBit_dataPad hi parity]
  unfold writeBit
  rw [setData_eq, setData_eq, setData_eq]
  split
  · next payload => rw [decide_eq_true (by omega), Bool.true_and]
  · next beyond =>
    rw [decide_eq_false (by omega), Bool.false_and, Bool.xor_false]
    split <;> rfl

/-- Settles O37: the invariant says what the write's registers hold at a drive. -/
theorem driveShowsTheFrameBit : Obligations.DriveShowsTheFrameBit := by
  unfold Obligations.DriveShowsTheFrameBit
  intro s i b h wire
  obtain ⟨byte, parity, -, -⟩ := wire.writing b _ h
  have byte : s.wb.byte = b := byte nofun
  have parity : s.wb.parity = (true ^^ prefixParity b (min i.val 8)) := parity nofun
  have drive := writeBit_eq (s := s) (i := i.val) (by omega) fun at8 => by rw [parity, byte, at8]; rfl
  rw [byte] at drive
  refine ⟨_, engineStep_writes h rfl, ?_⟩
  rw [writeEffect, drive]
  rfl

/-- Settles O38, by the outcome of the one check. -/
theorem lineControlErrorIsOnlyReported : Obligations.LineControlErrorIsOnlyReported := by
  unfold Obligations.LineControlErrorIsOnlyReported
  intro s b h
  rw [engineStep_writes h rfl, writeEffect, lineControl, check_sync]
  cases sampleLevel .data s <;> rfl

theorem ackOk_eq (b : Byte) : ackOk b = decide (b = 0xFA#8) := rfl

/-- Settles O39, by the outcome of the one check. -/
theorem onlyAWrongAcknowledgementFailsTheWrite : Obligations.OnlyAWrongAcknowledgementFailsTheWrite := by
  unfold Obligations.OnlyAWrongAcknowledgementFailsTheWrite
  intro s b h
  rw [engineStep_writes h rfl, writeEffect, writeCheck, check_sync, ackOk_eq]
  by_cases hack : s.wb.ack = 0xFA#8
  · rw [decide_eq_true hack, if_pos hack]; rfl
  · rw [decide_eq_false hack, if_neg hack]; rfl

/-! ## A read (R158-R162) -/

/-- Settles O40, position by position of the pulse, and with its end for each of the two kinds of read. -/
theorem readyPulseEndsARead : Obligations.ReadyPulseEndsARead := by
  unfold Obligations.ReadyPulseEndsARead
  refine fun s mode txn => ⟨fun h => engineStep_reads mode txn h nofun rfl, fun h => engineStep_reads mode txn h nofun rfl,
    fun h early => ?_, fun h passed => ?_, fun h => ?_⟩
  · rw [engineStep_reading mode txn h nofun, readDone, pollDelay_done, decide_eq_false (Nat.not_le.mpr early)]
    rfl
  · exact engineStep_reads mode txn h nofun ((pollDelay_done _ s).trans (decide_eq_true passed))
  · obtain ⟨b, hw⟩ | ⟨j, hq⟩ := reading_cases mode txn h
    · rw [engineStep_writes hw rfl, hw]; rfl
    · have noWrite : s.writing = none := by rw [State.writing, hq]
      rw [engineStep_ctResp hq, noWrite]
      rfl

/-- A sample's whole effect (R158-R161). -/
theorem readSample_eq (k : Nat) (s : State) :
    readSample k s = { s with
      dataPad := .inFloat
      draws := s.draws + 1
      rb := s.rb.sample k (sampleLevel .data s)
      diagLog := s.diagLog ++ s.rb.reports k (sampleLevel .data s) } := by
  rw [← readSample_diagLog, ReadRegs.sample, ← readSample_rb]
  unfold readSample readBit
  rw [check_sync, check_sync, check_sync]
  split
  · rfl
  split
  · rfl
  split <;> rfl

theorem putBit_eq_ite (b : Byte) (k : Nat) (d : Level) : putBit b k d = if d = HIGH then b ||| (1#8 <<< k) else b := by
  cases d
  · simp [putBit]
  · rfl

theorem sample_eq (r : ReadRegs) (k : Nat) (d : Level) :
    r.sample k d =
      { bit := d
        byte := if 1 ≤ k ∧ k ≤ 8 ∧ d = HIGH then r.byte ||| (1#8 <<< (k - 1)) else r.byte
        parity := if 1 ≤ k ∧ k ≤ 9 then r.parity ^^ d else r.parity } := by
  simp only [ReadRegs.sample, putBit_eq_ite, ← ite_and, and_assoc]

/-- A sample reports its position's check exactly if that fails (R241-R243). -/
theorem reports_eq (r : ReadRegs) {k : Nat} (hk : k ≤ 10) (d : Level) :
    r.reports k d =
      if k = 0 ∧ d = HIGH then [{ error := .startBitError, context := .sync, info := .bit d }]
      else if k = 9 ∧ (r.parity ^^ d) = false then [{ error := .parityError, context := .sync, info := .byte r.byte }]
      else if k = 10 ∧ d = LOW then [{ error := .stopBitError, context := .sync, info := .byte r.byte }]
      else [] := by
  unfold ReadRegs.reports
  split
  · next start => subst start; cases d <;> rfl
  split
  · next notStart payload => rw [if_neg (by omega), if_neg (by omega), if_neg (by omega)]
  split
  · next parity => subst parity; cases r.parity <;> cases d <;> rfl
  · have stop : k = 10 := by omega
    subst stop; cases d <;> rfl

/-- Settles O41: the sample's whole effect, written out by frame position. -/
theorem readSampleTakesTheBitAndItsCheck : Obligations.ReadSampleTakesTheBitAndItsCheck := by
  unfold Obligations.ReadSampleTakesTheBitAndItsCheck
  intro s k d mode txn h sampled
  rw [engineStep_reads mode txn h nofun rfl, readEffect, readSample_eq, sampled, sample_eq, reports_eq _ (by omega)]

end Sys2Proof.Machine
end

section
/-! PROOFS. The end of a transaction and what comes between two of a composite (R169, R173, R215-R218), and the program order
of a transaction (R157, R163, R165). -/

namespace Sys2Proof.Machine

theorem results_at_ctEnd {s : State} (hq : s.seq = .ctEnd) (txn : s.TxnInv) :
    s.txn.results.length = recvCount s.txn.desc := by
  have count := txn.position
  rwa [hq] at count

/-- At a transaction's end the invariant has what is kept find what it reads (R42, R215). -/
theorem kept_at_ctEnd {s : State} (hq : s.seq = .ctEnd) (mode : s.ModeInv) (txn : s.TxnInv) :
    s.op.post.counted s.txn.results.length ∧ ∃ syn, s.syn.after s.op.post s.txn.results = some syn := by
  have busy : s.inTxn = true := mode.busy_iff.mpr (by rw [hq]; rfl)
  have counted : s.op.post.counted s.txn.results.length := results_at_ctEnd hq txn ▸ txn.post busy
  have ready := txn.ready
  rw [State.posts, busy] at ready
  obtain ⟨syn, kept, -⟩ := ready.2 s.txn.results counted
  exact ⟨counted, syn, kept⟩

/-- What the return of a result writes: with no transaction left, the result, and the composite that goes on (log 13, 16). -/
theorem returnResult_eq (s : State) :
    returnResult s = { s with
      op := if s.op.todo = [] then s.suspended.headD s.op else s.op
      suspended := if s.op.todo = [] then s.suspended.tail else s.suspended
      resultStream := s.resultStream ++ if s.op.todo = [] then [{ ok := s.op.ok, bytes := s.txn.results }] else [] } := by
  rw [← returnResult_op, ← returnResult_suspended, ← returnResult_resultStream, returnResult]
  split
  · rw [resume]
    split <;> rfl
  · rfl

theorem engineStep_ctEnd {s : State} (hq : s.seq = .ctEnd) {syn : SynState}
    (kept : s.syn.after s.op.post s.txn.results = some syn) :
    engineStep s = .next (returnResult { s with
      inTxn := false, gate := true, seq := .idle, syn := syn
      op := { s.op with ok := s.op.ok && s.txn.ok, post := .nothing } }) := by
  simp only [engineStep, hq, ctEnd, kept, readElement_some]

/-- Settles O42: what is kept has a value, and the value is the store's. -/
theorem transactionEndOpensTheGate : Obligations.TransactionEndOpensTheGate := by
  unfold Obligations.TransactionEndOpensTheGate
  intro s hq mode txn ended
  obtain ⟨counted, syn, kept⟩ := kept_at_ctEnd hq mode txn
  have keeps {p : Post} (hp : s.op.post = p) : s.syn.after p s.txn.results = some syn := hp ▸ kept
  refine ⟨syn, ?_, fun hp => (Option.some.inj (keeps hp)).symm, fun hp => (Option.some.inj (keeps hp)).symm, ?_,
    fun r0 r1 r2 results => ?_⟩
  · rw [engineStep_ctEnd hq kept, returnResult_eq]
  · rintro q (hp | hp) <;> rw [hp] at counted <;> exact counted
  · rw [results] at keeps
    refine ⟨fun hp => (Option.some.inj (keeps hp)).symm, fun hp => (Option.some.inj (keeps hp)).symm,
      fun hp => (Option.some.inj (keeps hp)).symm, fun hp => ?_⟩
    obtain ⟨v, e, r, c, ⟨version, extCaps, resolution, clickpad⟩, stored⟩ := parse_eq_some.mp (keeps hp)
    obtain rfl : ⟨r0, r1, r2⟩ = c := Option.some.inj clickpad
    exact ⟨v, e, r, version, extCaps, resolution, stored⟩

/-- Settles O43: the engine's step at `CT_END`, at `IDLE` and at `CT_BEGIN`. -/
theorem compositeGoesOnAfterAnIdleStep : Obligations.CompositeGoesOnAfterAnIdleStep := by
  unfold Obligations.CompositeGoesOnAfterAnIdleStep
  refine ⟨fun s it rest todo => ⟨fun t hq h => ?_, fun hq => ?_, fun hq => ?_⟩, fun s hq todo => ?_⟩
  · simp only [engineStep, hq] at h
    obtain ⟨syn, -, rfl⟩ := ctEnd_cases h
    simp [todo]
  · simp only [engineStep, hq, todo]; rfl
  · simp only [engineStep, hq, todo]; rfl
  · simp only [engineStep, hq, todo]; rfl

/-- Settles O46: the walk through the transaction, with no step after `CT_END`. -/
theorem transactionWritesThenReadsInOrder : Obligations.TransactionWritesThenReadsInOrder := by
  unfold Obligations.TransactionWritesThenReadsInOrder
  exact fun nSend nRecv => (walk_transaction nSend nRecv 0).trans (List.append_nil _)

end Sys2Proof.Machine
end

section
/-! PROOFS. A response read of any eleven bits (R158-R163): its registers and reports by the bits, and `DATA` left to the
device from the first sample on. -/

namespace Sys2Proof.Machine

/-! ## What every step of a run keeps -/

/-- What the step on each of the events keeps holds after the run. -/
theorem afterEvents_keeps {P : State → Prop} {events : List Event}
    (keeps : ∀ e ∈ events, ∀ s t : State, P s → step { s with inputs := [e] } = .next t → P t) {s t : State} (hs : P s)
    (h : afterEvents events s = .next t) : P t := by
  induction events generalizing s with
  | nil => injection h with h; exact h ▸ hs
  | cons e events ih =>
    obtain ⟨first, rest⟩ := List.forall_mem_cons.mp keeps
    rw [afterEvents] at h
    split at h
    · next u hu => exact ih rest (first s u hs hu) h
    · cases h
    · cases h

/-! ## `DATA` during a response -/

/-- From the first sample of a response on `DATA` floats (R102, R158). -/
def State.DataFloats (s : State) : Prop := ∀ j p, s.seq = .ctResp j p → p.sampled ≠ 0 → s.dataPad = .inFloat

theorem dataFloats_of_same {s t : State} (h : s.DataFloats) (seq : t.seq = s.seq) (data : t.dataPad = s.dataPad) :
    t.DataFloats := by
  rw [State.DataFloats, seq, data]
  exact h

theorem dataFloats_of_first {t : State} (h : ∀ j p, t.seq = .ctResp j p → p = ReadPos.first) : t.DataFloats :=
  fun j p hq begun => absurd (h j p hq ▸ rfl) begun

theorem first_of_afterReads {nRecv i j : Nat} {p : ReadPos} (h : Seq.afterReads nRecv i = .ctResp j p) :
    p = ReadPos.first := by
  unfold Seq.afterReads at h
  split at h <;> cases h
  rfl

theorem first_of_afterWrites {nSend nRecv i j : Nat} {p : ReadPos} (h : Seq.afterWrites nSend nRecv i = .ctResp j p) :
    p = ReadPos.first := by
  unfold Seq.afterWrites at h
  split at h
  · cases h
  · exact first_of_afterReads h

/-- A write leads to the first position of a response at most (R165). -/
theorem first_of_write {q : Seq} {p : WritePos} (h : q.write = some p) {nSend nRecv j : Nat} {r : ReadPos}
    (next : q.next nSend nRecv = .ctResp j r) : r = ReadPos.first := by
  cases hp : p.next with
  | none =>
    obtain ⟨i, after⟩ := next_of_returns h hp nSend nRecv
    exact first_of_afterWrites (after.symm.trans next)
  | some p' =>
    obtain rfl | ⟨i, rfl⟩ := write_cases h
    · rw [next_ctOpcode, hp] at next; cases next
    · rw [next_ctArg, hp] at next; cases next

theorem write_dataFloats {s : State} {p : WritePos} (h : s.seq.write = some p) (b : Byte) (done : Bool) :
    (advance done (writeEffect b p s)).DataFloats := by
  refine dataFloats_of_first fun j r hq => ?_
  rw [advance_seq, writeEffect_seq] at hq
  split at hq
  · exact first_of_write h hq
  · rw [hq] at h; cases h

/-- Only a sample adds to what has been sampled (R158). -/
theorem sampled_of_next {p q : ReadPos} (next : p.next = some q) (begun : q.sampled ≠ 0) :
    p.sampled ≠ 0 ∨ ∃ k, p = .sample k := by
  cases p with
  | waitLow k w => cases w <;> cases next <;> exact .inl begun
  | sample k => exact .inr ⟨k, rfl⟩
  | waitHigh k w => exact .inl (Nat.succ_ne_zero _)
  | pulseLow | pulseHold w | pulseRel => exact .inl (Nat.succ_ne_zero _)

theorem response_dataFloats {s : State} (floats : s.DataFloats) {j : Nat} {p : ReadPos} (hq : s.seq = .ctResp j p) :
    (advance (readDone p s) (takeResponse p (readEffect p s))).DataFloats := by
  have atEffect (begun : p.sampled ≠ 0 ∨ ∃ k, p = .sample k) : (readEffect p s).dataPad = .inFloat := by
    obtain begun | ⟨k, rfl⟩ := begun
    · exact readEffect_dataPad p (floats j p hq begun)
    · exact readSample_dataPad k s
  intro i q seq begun
  rw [advance_seq, takeResponse_seq, readEffect_seq, hq] at seq
  rw [advance_dataPad, takeResponse_dataPad]
  split at seq
  · rw [next_ctResp] at seq
    cases next : p.next with
    | none =>
      rw [next] at seq
      exact absurd (first_of_afterReads seq ▸ rfl) begun
    | some p' =>
      rw [next] at seq
      injection seq with _ seq
      subst seq
      exact atEffect (sampled_of_next next begun)
  · injection seq with _ seq
    subst seq
    exact atEffect (.inl begun)

theorem engineStep_dataFloats {s t : State} (h : engineStep s = .next t) (floats : s.DataFloats) : t.DataFloats := by
  obtain ⟨-, -, rfl⟩ | ⟨-, -, rfl⟩ | ⟨-, -, rfl⟩ | ⟨it, rest, -, -, rfl⟩ | ⟨p, hq, rfl⟩ | ⟨i, p, b, hq, -, rfl⟩ |
    ⟨j, p, hq, rfl⟩ | ⟨-, hc⟩ := engineStep_cases h
  · exact floats
  · exact dataFloats_of_first nofun
  · exact dataFloats_of_first nofun
  · exact dataFloats_of_first nofun
  · exact write_dataFloats (by rw [hq]; rfl) _ _
  · exact write_dataFloats (by rw [hq]; rfl) _ _
  · exact response_dataFloats floats hq
  · obtain ⟨syn, -, rfl⟩ := ctEnd_cases hc
    exact dataFloats_of_first (by simp)

/-- The device, the passing of time and the engine alone take part in a synchronous read (R20, R62). -/
def inTransfer : Event → Bool
  | .device _ _ | .time _ | .engine => true
  | .handler _ | .caller _ | .readSnapshot => false

theorem step_dataFloats {e : Event} (transfer : inTransfer e = true) {s t : State} (floats : s.DataFloats)
    (h : step { s with inputs := [e] } = .next t) : t.DataFloats := by
  obtain ⟨u, hu, rfl⟩ := step_next h
  have seen : u.DataFloats := by
    cases e with
    | device l low => injection hu with hu; subst hu; exact dataFloats_of_same floats (by simp [nextEvent]) (by simp [nextEvent])
    | time d => injection hu with hu; subst hu; exact floats
    | engine => exact engineStep_dataFloats hu floats
    | _ => cases transfer
  exact seen

/-! ## The read -/

/-- The events of a synchronous read before the step in which its byte is taken. -/
def frameUntilTaken (c : Config.Params) (bits : List Level) : List Event :=
  bits.flatMap deviceBit ++ [.engine, .engine, .time c.tReadyPulse, .engine]

theorem deviceFrame_eq (c : Config.Params) (bits : List Level) :
    deviceFrame c bits = frameUntilTaken c bits ++ [.engine] := by
  rw [frameUntilTaken, List.append_assoc]; rfl

theorem frameUntilTaken_inTransfer (c : Config.Params) (bits : List Level) :
    ∀ e ∈ frameUntilTaken c bits, inTransfer e = true := by
  have bit : ∀ v, ∀ e ∈ deviceBit v, inTransfer e = true := by decide
  intro e he
  obtain he | he := List.mem_append.mp he
  · obtain ⟨v, -, he⟩ := List.mem_flatMap.mp he
    exact bit v e he
  · simp only [List.mem_cons, List.not_mem_nil, or_false] at he
    obtain rfl | rfl | rfl | rfl := he <;> rfl

/-- Up to that step a response read holds the byte that the bits assemble, has made its reports, and lets `DATA` float. -/
theorem response_untilTaken {s : State} {j : Nat} {bits : List Level} (length : bits.length = 11)
    (first : s.seq = .ctResp j ReadPos.first) (pullup : s.cfg.extPullup = true) :
    ∃ u, afterEvents (frameUntilTaken s.cfg bits) s = .next u ∧ u.view = s.view.readFrame bits (.ctResp j .pulseRel) ∧
      u.dataPad = .inFloat := by
  have reads : Reads s.view.txn (.ctResp j) := reads_ctResp s.txn j
  have leads := (leads_bits reads pullup length first).append
    (leads_pulse (v := s.view.readFrame bits (.ctResp j .pulseLow)) reads rfl)
  obtain ⟨u, run, view⟩ := leads s rfl
  have floats : s.DataFloats := dataFloats_of_first fun i p hq => by
    rw [first] at hq
    injection hq with _ hq
    exact hq.symm
  have floats : u.DataFloats := afterEvents_keeps
    (fun e he _ _ floats h => step_dataFloats (frameUntilTaken_inTransfer s.cfg bits e he) floats h) floats run
  exact ⟨u, run, view, floats j .pulseRel (congrArg View.seq view) nofun⟩

/-- Settles O47: the read up to its last step, and the release of the clock with which the byte is taken. -/
theorem synchronousReadAssemblesElevenBits : Obligations.SynchronousReadAssemblesElevenBits := by
  unfold Obligations.SynchronousReadAssemblesElevenBits
  intro s j bits length first pullup
  obtain ⟨u, run, view, data⟩ := response_untilTaken length first pullup
  have hq : u.seq = .ctResp j .pulseRel := congrArg View.seq view
  have taken := performs_ctResp u.txn j .pulseRel { u with inputs := [] } rfl hq rfl
  have last := afterEvents_cons (e := .engine) (l := []) (s := u) taken
  have txn : u.txn = s.txn := congrArg View.txn view
  have byte : u.rb.byte = byteOfBits bits := congrArg (·.rb.byte) view
  have whole := (afterEvents_append run).trans last
  rw [← deviceFrame_eq] at whole
  refine ⟨_, whole, ?_, congrArg View.diagLog view, ?_,
    congrArg View.rxStream view, congrArg View.frame view, rfl, data⟩
  · rw [← txn, ← byte]; rfl
  · rw [← txn]; rfl

end Sys2Proof.Machine
end

section
/-! PROOFS. A whole operation under a device that clocks every bit (R156, R165-R168, R217): what its answered series comes to. -/

namespace Sys2Proof.Machine

/-! ## What is kept of an answered series -/

/-- A series of which nothing is kept leaves the store as it is. -/
theorem afterSeries_of_nothing {items : List Item} (nothing : ∀ it ∈ items, it.post = .nothing) (y : SynState)
    (answers : List Answer) : y.afterSeries items answers = some y := by
  induction items generalizing answers with
  | nil => rfl
  | cons it items ih =>
    obtain ⟨here, later⟩ := List.forall_mem_cons.mp nothing
    cases answers with
    | nil => rfl
    | cons a answers =>
      rw [SynState.afterSeries, here]
      exact ih later answers

/-- An operation's series finds what it keeps, whatever fitting answers it gets and whatever the store held before. -/
theorem afterSeries_expansion {cfg : Config.Params} {i : Instr} {answers : List Answer}
    (fit : answersFit answers (expansion cfg i)) (y : SynState) :
    ∃ syn, y.afterSeries (expansion cfg i) answers = some syn := by
  cases i with
  | synInit =>
    obtain ⟨v, e, r, c, -, kept⟩ := keeps_synInit fit
    exact ⟨_, kept y⟩
  | _ =>
    refine ⟨y, afterSeries_of_nothing ?_ y answers⟩
    simp [expansion, encodedItems, queryItems, setModeItems, modeProgramItems, item]

/-! ## The end of an answered series -/

/-- `w` is `v` after a series that has been answered to its end with `answers`: idle, the gate open, a composite put aside
going on, one result more, and a report for each wrong acknowledgement. -/
structure View.Completes (w v : View) (answers : List Answer) : Prop where
  configured : w.configured = v.configured
  inHandler : w.inHandler = v.inHandler
  inTxn : w.inTxn = false
  gate : w.gate = true
  frame : w.frame = Frame.idle
  seq : w.seq = .idle
  todo : w.op.todo = (v.suspended.headD Operation.none).todo
  suspended : w.suspended = v.suspended.tail
  resultStream : w.resultStream = v.resultStream ++
    [{ ok := v.op.ok && answers.all fun a => a.acks.all ackOk
       bytes := (answers.getLast?.map Answer.responses).getD [] }]
  diagLog : w.diagLog = v.diagLog ++ answers.flatMap fun a => nackReports a.acks
  rxStream : w.rxStream = v.rxStream

/-- The last transaction of a series completes it. -/
theorem completes_last (v : View) (it : Item) (a : Answer) (ack : Byte) (rb : ReadRegs) (syn : SynState) :
    (((v.begun it []).answered a ack rb).ended syn).Completes v [a] where
  configured := rfl
  inHandler := rfl
  inTxn := rfl
  gate := rfl
  frame := rfl
  seq := rfl
  todo := by cases h : v.suspended <;> simp [View.ended, View.answered, View.begun, h, Operation.none]
  suspended := rfl
  resultStream := by simp [View.ended, View.answered, View.begun]
  diagLog := by simp [View.ended, View.answered, View.begun]
  rxStream := rfl

/-- A transaction before the last adds its acknowledgements to what the rest of the series completes. -/
theorem View.Completes.cons {v w : View} {it next : Item} {rest : List Item} {a a' : Answer} {answers : List Answer}
    {ack : Byte} {rb : ReadRegs} {syn : SynState}
    (h : w.Completes (((v.begun it (next :: rest)).answered a ack rb).ended syn) (a' :: answers)) :
    w.Completes v (a :: a' :: answers) where
  configured := h.configured
  inHandler := h.inHandler
  inTxn := h.inTxn
  gate := h.gate
  frame := h.frame
  seq := h.seq
  todo := h.todo
  suspended := h.suspended
  resultStream := by
    rw [h.resultStream]
    simp [View.ended, View.answered, View.begun, Bool.and_assoc]
  diagLog := by
    rw [h.diagLog]
    simp [View.ended, View.answered, View.begun]
  rxStream := h.rxStream

/-- A series whose first transaction has begun is carried out to its end. -/
theorem leads_completed {v : View} {it : Item} {rest : List Item} {answers : List Answer} {syn : SynState}
    (pullup : v.cfg.extPullup = true) (args : ∀ x ∈ it :: rest, x.args.length = sendCount x.desc)
    (fit : answersFit answers (it :: rest)) (kept : v.syn.afterSeries (it :: rest) answers = some syn) :
    ∃ w, Leads (answeredOperation v.cfg answers) (v.begun it rest) w ∧ w.Completes v answers := by
  induction rest generalizing v it answers with
  | nil =>
    obtain _ | ⟨a, _ | ⟨a', answers⟩⟩ := answers
    · cases fit
    · obtain ⟨y, after, -⟩ := Option.bind_eq_some_iff.mp kept
      obtain ⟨ack, rb, run⟩ := leads_transaction (rest := []) pullup (args it (by simp)) fit.1 after
      exact ⟨_, run, completes_last v it a ack rb y⟩
    · cases fit.2
  | cons next rest ih =>
    obtain _ | ⟨a, _ | ⟨a', answers⟩⟩ := answers
    · cases fit
    · cases fit.2
    · obtain ⟨y, after, kept⟩ := Option.bind_eq_some_iff.mp kept
      obtain ⟨ack, rb, run⟩ := leads_transaction (rest := next :: rest) pullup (args it (by simp)) fit.1 after
      obtain ⟨w, run', completes⟩ := ih (v := ((v.begun it (next :: rest)).answered a ack rb).ended y) pullup
        (fun x hx => args x (by simp [hx])) fit.2 kept
      exact ⟨w, (run.append (leads_begun rfl rfl)).append run', completes.cons⟩

/-! ## The operation put aside -/

/-- The operations put aside when an operation is admitted at `s`. -/
def State.putAside (s : State) : List Operation := if s.op.todo = [] then s.suspended else s.op :: s.suspended

/-- What was running when an operation was admitted goes on after it: the composite in whose gap it came, or none, under which
no other is put aside (log 13). -/
theorem putAside_goes_on {s : State} (mode : s.ModeInv) (free : s.inTxn = false) :
    (s.putAside.headD Operation.none).todo = s.op.todo ∧ s.putAside.tail = s.suspended := by
  unfold State.putAside
  split
  · next none => simp [mode.suspendedUnder free none, none, Operation.none]
  · exact ⟨rfl, rfl⟩

/-- Settles O49: the run of the series, and what it completes. -/
theorem cooperatingDeviceGetsTheWholeOperation : Obligations.CooperatingDeviceGetsTheWholeOperation := by
  unfold Obligations.CooperatingDeviceGetsTheWholeOperation
  intro i s answers wf mode ready pullup fit
  obtain ⟨it, rest, series⟩ := expansion_cons s.cfg i
  obtain ⟨syn, kept⟩ := afterSeries_expansion fit s.syn
  have sound (x : Item) (hx : x ∈ it :: rest) : x.args.length = sendCount x.desc :=
    (expansion_sound wf s.cfg x (series ▸ hx)).1
  rw [series] at fit kept
  obtain ⟨u, begins, view⟩ := exec_view wf ready series
  obtain ⟨w, leads, completes⟩ := leads_completed (v := { s.view with op := Operation.none, suspended := s.putAside })
    pullup sound fit kept
  obtain ⟨t, run, rfl⟩ := leads u view
  obtain ⟨todo, suspended⟩ := putAside_goes_on mode ready.noTxn
  exact ⟨u, t, begins, run, ⟨completes.configured.trans ready.configured, completes.inTxn,
    completes.inHandler.trans ready.noHandler⟩, completes.seq, completes.gate, completes.todo.trans todo,
    completes.suspended.trans suspended, completes.resultStream, completes.diagLog, completes.rxStream, completes.frame⟩

end Sys2Proof.Machine
end

section
/-! PROOFS. How far a running operation is from its end (R165, R173, R217): every engine step that leaves its position brings
it nearer, and none that stays has waited for the longest bound (R105-R107). -/

namespace Sys2Proof.Machine

/-! ## Positions before the end of a transaction (R165, R173) -/

theorem mem_readPath (p : ReadPos) : p ∈ ReadPos.path := by
  cases p with
  | waitLow k w | waitHigh k w | pulseHold w => cases w <;> simp [ReadPos.path]
  | _ => simp [ReadPos.path]

theorem mem_writePath (p : WritePos) : p ∈ WritePos.path := by
  cases p with
  | rtsHold w | bitWaitLow i w | bitWaitHigh i w | lcWaitLow w | lcWaitHigh w => cases w <;> simp [WritePos.path]
  | ack p => simp [WritePos.path, mem_readPath]
  | _ => simp [WritePos.path]

/-- A position within its counts is on the path of its transaction (R165). -/
theorem mem_path {q : Seq} {t : Txn} (side : q.inTransaction = true) (counted : q.counted t) :
    q ∈ Seq.path (sendCount t.desc) (recvCount t.desc) := by
  cases q with
  | idle => cases side
  | ctBegin => cases side
  | ctOpcode p => simp [Seq.path, mem_writePath]
  | ctArg i p => simp [Seq.path, mem_writePath, counted.1]
  | ctResp j p => simp [Seq.path, mem_readPath, counted.1]
  | ctEnd => simp [Seq.path]

theorem mem_walk {nSend nRecv n : Nat} {q start : Seq} (h : q ∈ Seq.walk nSend nRecv n start) :
    ∃ i < n, (Seq.next nSend nRecv)^[i] start = q := by
  induction n generalizing start with
  | zero => cases h
  | succ n ih =>
    obtain rfl | h := List.mem_cons.mp h
    · exact ⟨0, Nat.succ_pos n, rfl⟩
    · obtain ⟨i, hi, same⟩ := ih h
      exact ⟨i + 1, Nat.succ_lt_succ hi, same⟩

theorem getLast?_walk (nSend nRecv n : Nat) (start : Seq) :
    (Seq.walk nSend nRecv (n + 1) start).getLast? = some ((Seq.next nSend nRecv)^[n] start) := by
  induction n generalizing start with
  | zero => rfl
  | succ n ih => rw [Seq.walk, List.getLast?_cons, ih]; rfl

/-- From its opcode a transaction comes to `IDLE` in its length. -/
theorem opcode_reaches_idle (it : Item) :
    (Seq.next (sendCount it.desc) (recvCount it.desc))^[txnLength it] (.ctOpcode .rtsClk) = .idle := by
  obtain ⟨-, -, last⟩ := transactionHasAFixedNumberOfWaits (sendCount it.desc) (recvCount it.desc)
  exact Option.some.inj ((getLast?_walk _ _ _ _).symm.trans last)

/-- And so it does from every position within its counts. -/
theorem reaches_idle {q : Seq} {t : Txn} (side : q.inTransaction = true) (counted : q.counted t) :
    ∃ k, (Seq.next (sendCount t.desc) (recvCount t.desc))^[k] q = .idle := by
  have onWalk := mem_path side counted
  rw [← transactionWritesThenReadsInOrder] at onWalk
  obtain ⟨i, hi, rfl⟩ := mem_walk onWalk
  obtain ⟨k, hk⟩ := Nat.exists_eq_add_of_lt hi
  refine ⟨k + 1, ?_⟩
  rw [← Function.iterate_add_apply, Nat.add_comm, ← Nat.add_assoc, ← hk]
  exact opcode_reaches_idle { desc := t.desc, args := [], post := .nothing }

/-! ## Steps left of the running operation -/

/-- Engine steps that leave a position after a transaction, with `items` still to begin. -/
def gapLength (items : List Item) : Nat := if items = [] then 0 else 2 + operationLength items

theorem operationLength_cons (it : Item) (rest : List Item) :
    operationLength (it :: rest) = txnLength it + gapLength rest := by
  cases rest with
  | nil => rfl
  | cons next rest => rw [operationLength, gapLength, if_neg (List.cons_ne_nil _ _), Nat.add_assoc]; exact nofun

/-- At most `n` engine steps that leave a position are left of the running operation. -/
inductive State.Left (s : State) (n : Nat) : Prop
  | idle (seq : s.seq = .idle) (more : s.op.todo ≠ []) (bound : 2 + operationLength s.op.todo ≤ n)
  | ctBegin (seq : s.seq = .ctBegin) (more : s.op.todo ≠ []) (bound : 1 + operationLength s.op.todo ≤ n)
  | inTxn (k : Nat) (side : s.seq.inTransaction = true)
      (reaches : (Seq.next (sendCount s.txn.desc) (recvCount s.txn.desc))^[k] s.seq = .idle)
      (bound : k + gapLength s.op.todo ≤ n)

/-- An operation runs: a transaction is in progress, or one is still to begin (R173). -/
def State.Running (s : State) : Prop := s.inTxn = true ∨ s.op.todo ≠ []

theorem left_of_running {s : State} (mode : s.ModeInv) (txn : s.TxnInv) (running : s.Running) : ∃ n, s.Left n := by
  cases side : s.seq.inTransaction with
  | true =>
    obtain ⟨k, reaches⟩ := reaches_idle side txn.position
    exact ⟨_, .inTxn k side reaches (Nat.le_refl _)⟩
  | false =>
    have more : s.op.todo ≠ [] := running.resolve_left (by rw [mode.txnSeq, side]; exact Bool.false_ne_true)
    cases hq : s.seq with
    | idle => exact ⟨_, .idle hq more (Nat.le_refl _)⟩
    | ctBegin => exact ⟨_, .ctBegin hq more (Nat.le_refl _)⟩
    | _ => rw [hq] at side; cases side

/-- An operation whose first transaction begins has its length left. -/
theorem left_of_begun {s : State} {it : Item} {n : Nat} (seq : s.seq = .ctOpcode .rtsClk) (desc : s.txn.desc = it.desc)
    (bound : operationLength (it :: s.op.todo) ≤ n) : s.Left n := by
  refine .inTxn (txnLength it) (by rw [seq]; rfl) ?_ (operationLength_cons it _ ▸ bound)
  rw [seq, desc]
  exact opcode_reaches_idle it

theorem State.Left.congr {s t : State} {n : Nat} (left : s.Left n) (same : t.SameCaller s) : t.Left n := by
  obtain ⟨seq, more, bound⟩ | ⟨seq, more, bound⟩ | ⟨k, side, reaches, bound⟩ := left <;>
    rw [← same.op] at bound
  · exact .idle (same.seq.trans seq) (same.op ▸ more) bound
  · exact .ctBegin (same.seq.trans seq) (same.op ▸ more) bound
  · rw [← same.seq, ← same.txn] at reaches
    exact .inTxn k (same.seq ▸ side) reaches bound

section
variable {s : State} {n : Nat} (left : s.Left n)
include left

theorem State.Left.at_idle (hq : s.seq = .idle) : s.op.todo ≠ [] ∧ 2 + operationLength s.op.todo ≤ n := by
  obtain ⟨-, more, bound⟩ | ⟨hq', -, -⟩ | ⟨-, side, -, -⟩ := left
  · exact ⟨more, bound⟩
  · cases hq.symm.trans hq'
  · rw [hq] at side; cases side

theorem State.Left.at_ctBegin (hq : s.seq = .ctBegin) : s.op.todo ≠ [] ∧ 1 + operationLength s.op.todo ≤ n := by
  obtain ⟨hq', -, -⟩ | ⟨-, more, bound⟩ | ⟨-, side, -, -⟩ := left
  · cases hq.symm.trans hq'
  · exact ⟨more, bound⟩
  · rw [hq] at side; cases side

/-- Within a transaction at least the step at `CT_END` is left. -/
theorem State.Left.in_txn (side : s.seq.inTransaction = true) :
    ∃ k, (Seq.next (sendCount s.txn.desc) (recvCount s.txn.desc))^[k + 1] s.seq = .idle ∧
      k + 1 + gapLength s.op.todo ≤ n := by
  obtain ⟨hq, -, -⟩ | ⟨hq, -, -⟩ | ⟨k, -, reaches, bound⟩ := left
  · rw [hq] at side; cases side
  · rw [hq] at side; cases side
  · cases k with
    | zero => rw [show s.seq = .idle from reaches] at side; cases side
    | succ k => exact ⟨k, reaches, bound⟩

theorem State.Left.pos : 0 < n := by
  obtain ⟨-, -, bound⟩ | ⟨-, -, bound⟩ | ⟨k, side, reaches, bound⟩ := left
  · omega
  · omega
  · obtain ⟨k, -, bound⟩ := (State.Left.inTxn k side reaches bound).in_txn side
    omega

end

/-! ## Polls that have waited for the longest bound (R105-R107) -/

section
variable {s : State} (late : Config.longest s.cfg ≤ s.now - s.waitT0)
include late

theorem pollClock_done_of_late (t : Level) : (pollClock t s).done = true :=
  pollClock_done (Nat.le_trans (Nat.le_max_left _ _) late)

theorem pollDelay_done_of_late {d : Time} (bound : d ≤ Config.longest s.cfg) : (pollDelay d s).done = true :=
  (pollDelay_done d s).trans (decide_eq_true (Nat.le_trans bound late))

theorem readDone_of_late (p : ReadPos) : readDone p s = true := by
  cases p with
  | waitLow k w | waitHigh k w =>
    cases w with
    | enter => rfl
    | poll => exact pollClock_done_of_late late _
  | pulseHold w =>
    cases w with
    | enter => rfl
    | poll => exact pollDelay_done_of_late late (Nat.le_trans (Nat.le_max_right _ _) (Nat.le_max_right _ _))
  | _ => rfl

theorem writeDone_of_late (p : WritePos) : writeDone p s = true := by
  cases p with
  | bitWaitLow i w | bitWaitHigh i w | lcWaitLow w | lcWaitHigh w =>
    cases w with
    | enter => rfl
    | poll => exact pollClock_done_of_late late _
  | rtsHold w =>
    cases w with
    | enter => rfl
    | poll => exact pollDelay_done_of_late late (Nat.le_trans (Nat.le_max_left _ _) (Nat.le_max_right _ _))
  | ack p => exact readDone_of_late late p
  | _ => rfl

end

/-- A read position that is not left does not start its time anew. -/
theorem readEffect_stays_waitT0 {p : ReadPos} {s : State} (stays : readDone p s = false) :
    (readEffect p s).waitT0 = s.waitT0 := by
  cases p with
  | waitLow k w | waitHigh k w =>
    cases w with
    | enter => cases stays
    | poll => exact waitPoll_waitT0 _ s
  | pulseHold w =>
    cases w with
    | enter => cases stays
    | poll => rfl
  | _ => cases stays

theorem writeEffect_stays_waitT0 {b : Byte} {p : WritePos} {s : State} (stays : writeDone p s = false) :
    (writeEffect b p s).waitT0 = s.waitT0 := by
  cases p with
  | bitWaitLow i w | bitWaitHigh i w | lcWaitLow w | lcWaitHigh w =>
    cases w with
    | enter => cases stays
    | poll => exact waitPoll_waitT0 _ s
  | rtsHold w =>
    cases w with
    | enter => cases stays
    | poll => rfl
  | ack p => exact (takeAck_waitT0 p _).trans (readEffect_stays_waitT0 stays)
  | _ => cases stays

/-! ## The engine's step within a transaction -/

/-- An engine step within a transaction either leaves its position, or has not waited for the longest bound yet and goes on
waiting; the operation is the same. -/
structure State.Moves (t s : State) (left : Bool) : Prop where
  seq : t.seq = if left then s.seq.next (sendCount s.txn.desc) (recvCount s.txn.desc) else s.seq
  desc : t.txn.desc = s.txn.desc
  op : t.op = s.op
  suspended : t.suspended = s.suspended
  resultStream : t.resultStream = s.resultStream
  waits : left = false → t.waitT0 = s.waitT0 ∧ s.now - s.waitT0 < Config.longest s.cfg

theorem write_moves (b : Byte) (p : WritePos) (s : State) :
    (advance (writeDone p s) (writeEffect b p s)).Moves s (writeDone p s) where
  seq := by simp [advance_seq]
  desc := by simp
  op := by simp
  suspended := by simp
  resultStream := by simp
  waits stays := by
    refine ⟨(advance_waitT0 _ _).trans (writeEffect_stays_waitT0 stays), Nat.lt_of_not_le fun late => ?_⟩
    rw [writeDone_of_late late] at stays
    cases stays

theorem response_moves (p : ReadPos) (s : State) :
    (advance (readDone p s) (takeResponse p (readEffect p s))).Moves s (readDone p s) where
  seq := by simp [advance_seq]
  desc := by simp
  op := by simp
  suspended := by simp
  resultStream := by simp
  waits stays := by
    refine ⟨?_, Nat.lt_of_not_le fun late => ?_⟩
    · rw [advance_waitT0, takeResponse_waitT0]
      exact readEffect_stays_waitT0 stays
    · rw [readDone_of_late late] at stays
      cases stays

/-! ## What an engine step makes of the running operation -/

/-- The descriptor of the last transaction of the running operation. -/
def State.lastDesc (s : State) : Descriptor := (s.op.todo.getLast?.map Item.desc).getD s.txn.desc

/-- The operation that runs in `s` goes on in `t`. -/
structure State.Continues (t s : State) : Prop where
  suspended : t.suspended = s.suspended
  resultStream : t.resultStream = s.resultStream
  lastDesc : t.lastDesc = s.lastDesc

theorem State.Continues.trans {s t u : State} (h : u.Continues t) (h' : t.Continues s) : u.Continues s :=
  ⟨h.suspended.trans h'.suspended, h.resultStream.trans h'.resultStream, h.lastDesc.trans h'.lastDesc⟩

/-- The operation that runs in `s` has ended in `t`: one result more, with the bytes of its last transaction, and the composite
put aside last goes on (R169, R217). -/
structure State.Ends (t s : State) : Prop where
  configured : t.configured = true
  inTxn : t.inTxn = false
  seq : t.seq = .idle
  todo : t.op.todo = (s.suspended.headD Operation.none).todo
  suspended : t.suspended = s.suspended.tail
  result : ∃ r, t.resultStream = s.resultStream ++ [r] ∧ r.bytes.length = recvCount s.lastDesc

theorem State.Ends.of_continues {s t u : State} (ends : u.Ends t) (goesOn : t.Continues s) : u.Ends s where
  configured := ends.configured
  inTxn := ends.inTxn
  seq := ends.seq
  todo := by rw [← goesOn.suspended]; exact ends.todo
  suspended := by rw [← goesOn.suspended]; exact ends.suspended
  result := by rw [← goesOn.resultStream, ← goesOn.lastDesc]; exact ends.result

/-- A step brings the operation that runs in `s` nearer to its end, or waits on with the same start (R106). -/
inductive State.Nears (t s : State) (n : Nat) : Prop
  | ends (h : t.Ends s)
  | leaves (goesOn : t.Continues s) (m : Nat) (less : m < n) (left : t.Left m)
  | waits (goesOn : t.Continues s) (left : t.Left n) (waitT0 : t.waitT0 = s.waitT0)
      (early : s.now - s.waitT0 < Config.longest s.cfg)

theorem State.Moves.nears {s t : State} {done : Bool} {n : Nat} (moves : t.Moves s done) (left : s.Left n)
    (side : s.seq.inTransaction = true) (before : s.seq ≠ .ctEnd) : t.Nears s n := by
  have goesOn : t.Continues s :=
    ⟨moves.suspended, moves.resultStream, by rw [State.lastDesc, moves.op, moves.desc, State.lastDesc]⟩
  obtain ⟨k, reaches, bound⟩ := left.in_txn side
  rw [← moves.op] at bound
  cases done with
  | false =>
    have seq : t.seq = s.seq := moves.seq
    obtain ⟨waitT0, early⟩ := moves.waits rfl
    rw [← moves.desc, ← seq] at reaches
    exact .waits goesOn (.inTxn (k + 1) (seq ▸ side) reaches bound) waitT0 early
  | true =>
    have seq : t.seq = s.seq.next (sendCount s.txn.desc) (recvCount s.txn.desc) := moves.seq
    have side' : t.seq.inTransaction = true := seq ▸ next_inTransaction side before _ _
    rw [Function.iterate_succ_apply, ← seq, ← moves.desc] at reaches
    exact .leaves goesOn (k + gapLength t.op.todo) (by omega) (.inTxn k side' reaches (Nat.le_refl _))

theorem begin_nears {s : State} {it : Item} {rest : List Item} {n : Nat} (todo : s.op.todo = it :: rest)
    (bound : 1 + operationLength s.op.todo ≤ n) : (ctBegin it { s with op := { s.op with todo := rest } }).Nears s n := by
  refine .leaves ⟨rfl, rfl, ?_⟩ (operationLength s.op.todo) (by omega) (left_of_begun rfl rfl (todo ▸ Nat.le_refl _))
  rw [State.lastDesc, State.lastDesc, todo, List.getLast?_cons]
  show (rest.getLast?.map Item.desc).getD it.desc = _
  cases rest.getLast? <;> rfl

/-- At `CT_END` the operation ends, or its next transaction is still to begin. -/
theorem ctEnd_nears {s t : State} {n : Nat} (h : ctEnd s = .next t) (hq : s.seq = .ctEnd) (mode : s.ModeInv) (txn : s.TxnInv)
    (left : s.Left n) : t.Nears s n := by
  have side : s.seq.inTransaction = true := by rw [hq]; rfl
  obtain ⟨syn, -, rfl⟩ := ctEnd_cases h
  by_cases last : s.op.todo = []
  · refine .ends ⟨by simpa using mode.txnConfigured (mode.busy_iff.mpr side), by simp, by simp, ?_, by simp [last],
      { ok := s.op.ok && s.txn.ok, bytes := s.txn.results }, by simp [last], ?_⟩
    · cases s.suspended <;> simp [last, Operation.none]
    · simpa [State.lastDesc, last] using results_at_ctEnd hq txn
  · obtain ⟨k, -, bound⟩ := left.in_txn side
    rw [gapLength, if_neg last] at bound
    exact .leaves ⟨by simp [last], by simp [last], by simp [State.lastDesc, last]⟩ (2 + operationLength s.op.todo) (by omega)
      (.idle (by simp) (by simp [last]) (by simp [last]))

theorem engineStep_nears {s t : State} {n : Nat} (h : engineStep s = .next t) (mode : s.ModeInv) (txn : s.TxnInv)
    (left : s.Left n) : t.Nears s n := by
  obtain ⟨hq, none, -⟩ | ⟨hq, more, rfl⟩ | ⟨hq, none, -⟩ | ⟨it, rest, hq, todo, rfl⟩ | ⟨p, hq, rfl⟩ | ⟨i, p, b, hq, -, rfl⟩ |
    ⟨j, p, hq, rfl⟩ | ⟨hq, hc⟩ := engineStep_cases h
  · exact absurd none (left.at_idle hq).1
  · have bound := (left.at_idle hq).2
    exact .leaves ⟨rfl, rfl, rfl⟩ (1 + operationLength s.op.todo) (by omega) (.ctBegin rfl more (Nat.le_refl _))
  · exact absurd none (mode.beginHasItem hq)
  · exact begin_nears todo (left.at_ctBegin hq).2
  · exact (write_moves _ p s).nears left (by rw [hq]; rfl) (by rw [hq]; nofun)
  · exact (write_moves b p s).nears left (by rw [hq]; rfl) (by rw [hq]; nofun)
  · exact (response_moves p s).nears left (by rw [hq]; rfl) (by rw [hq]; nofun)
  · exact ctEnd_nears hc hq mode txn left

end Sys2Proof.Machine
end

section
/-! PROOFS. Every operation ends (R170, R106): along a run of quiet events in which the longest bound passes again and again
before an engine step. -/

namespace Sys2Proof.Machine

/-! ## A step on a quiet event -/

/-- From the invariant the engine always has a step (R37, R42). -/
theorem engineStep_exists {s : State} (mode : s.ModeInv) (txn : s.TxnInv) : ∃ t, engineStep s = .next t := by
  cases busy : s.inTxn with
  | false => exact applyEvent_quiet mode busy (e := .engine) rfl nofun
  | true =>
    have side := mode.busy_iff.mp busy
    cases hq : s.seq with
    | idle => rw [hq] at side; cases side
    | ctBegin => rw [hq] at side; cases side
    | ctOpcode p => exact ⟨_, engineStep_ctOpcode hq⟩
    | ctArg i p =>
      obtain ⟨b, step⟩ := engineStep_ctArg mode txn hq
      exact ⟨_, step⟩
    | ctResp j p => exact ⟨_, engineStep_ctResp hq⟩
    | ctEnd =>
      obtain ⟨-, syn, kept⟩ := kept_at_ctEnd hq mode txn
      exact ⟨_, engineStep_ctEnd hq kept⟩

/-- With a consumer that asks for nothing the handler has a step at every legal frame position (R121, R130). -/
theorem handlerStep_exists {s : State} (legal : s.frame.bitIndex.toNat ≤ 10) : ∃ t, handlerStep none s = .next t := by
  cases enabled : s.handlerEnabled with
  | false => exact ⟨s, handlerStep_disabled enabled none⟩
  | true =>
    cases level : sampleLevel .clk (enterHandler s) with
    | true => exact ⟨_, handlerStep_spurious enabled level none⟩
    | false => exact ⟨_, handlerStep_next enabled level (consumeBit_take (by simpa using legal) _)⟩

theorem applyEvent_exists {e : Event} (hq : quiet e = true) {s : State} (inv : s.Inv) : ∃ t, applyEvent e s = .next t := by
  cases e with
  | device l low => exact ⟨_, rfl⟩
  | time d => exact ⟨_, rfl⟩
  | engine => exact engineStep_exists inv.mode inv.txn
  | handler c =>
    cases c with
    | none => exact handlerStep_exists inv.frame.index
    | some r => cases hq
  | caller r => cases hq
  | readSnapshot => cases hq

/-- What a quiet event makes of the operation that runs: it ends it, or leaves its position, or the operation waits on, at a poll
of the engine not for the longest bound yet. -/
inductive State.Follows (t s : State) (n : Nat) (e : Event) : Prop
  | ends (h : t.Ends s)
  | leaves (engine : e = .engine) (now : t.now = s.now) (goesOn : t.Continues s) (m : Nat) (less : m < n) (left : t.Left m)
  | waits (now : t.now = s.now + elapsed [e]) (goesOn : t.Continues s) (left : t.Left n) (waitT0 : t.waitT0 = s.waitT0)
      (early : e = .engine → s.now - s.waitT0 < Config.longest s.cfg)

theorem State.SameCaller.continues {s t : State} (same : t.SameCaller s) : t.Continues s where
  suspended := same.suspended
  resultStream := same.resultStream
  lastDesc := by rw [State.lastDesc, same.op, same.txn, State.lastDesc]

theorem State.Follows.of_sameCaller {s t : State} {n : Nat} {e : Event} (same : t.SameCaller s) (other : e ≠ .engine)
    (now : t.now = s.now + elapsed [e]) (left : s.Left n) : t.Follows s n e :=
  .waits now same.continues (left.congr same) same.waitT0 fun engine => absurd engine other

theorem setDevLow_sameCaller (l : Line) (low : Bool) (s : State) : (s.setDevLow l low).SameCaller s := by
  constructor <;> simp

theorem advanceTime_sameCaller (d : Time) (s : State) : (advanceTime d s).SameCaller s := by
  constructor <;> rfl

theorem latchEdge_sameCaller (s t : State) : (latchEdge s t).SameCaller t := by
  constructor <;> rfl

theorem inputs_sameCaller (s : State) (l m : List Event) : { s with inputs := l }.SameCaller { s with inputs := m } := by
  constructor <;> rfl

theorem applyEvent_follows {e : Event} (hq : quiet e = true) {s t : State} {n : Nat} (h : applyEvent e s = .next t)
    (mode : s.ModeInv) (txn : s.TxnInv) (left : s.Left n) : t.Follows s n e := by
  cases e with
  | device l low =>
    injection h with h
    subst h
    exact .of_sameCaller (setDevLow_sameCaller l low s) nofun (by simp [elapsed]) left
  | time d =>
    injection h with h
    subst h
    exact .of_sameCaller (advanceTime_sameCaller d s) nofun rfl left
  | engine =>
    have now : t.now = s.now := (engineStep_sameEnvironment h).now
    cases engineStep_nears h mode txn left with
    | ends h => exact .ends h
    | leaves goesOn m less left => exact .leaves rfl now goesOn m less left
    | waits goesOn left waitT0 early => exact .waits now goesOn left waitT0 fun _ => early
  | handler c => exact .of_sameCaller (handlerStep_sameCaller h) nofun (handlerStep_sameEnvironment h).now left
  | caller r => cases hq
  | readSnapshot => cases hq

/-- That does not look at the model's own fields, at a pending edge or at the lines. -/
theorem State.Follows.congr {s s' t t' : State} {n : Nat} {e : Event} (follows : t.Follows s n e) (after : t'.SameCaller t)
    (before : s.SameCaller s') (nowAfter : t'.now = t.now) (now : s.now = s'.now) (cfg : s.cfg = s'.cfg) :
    t'.Follows s' n e := by
  have goes (goesOn : t.Continues s) : t'.Continues s' := (after.continues.trans goesOn).trans before.continues
  cases follows with
  | ends h =>
    have ends : t'.Ends s :=
      ⟨after.configured.trans h.configured, after.inTxn.trans h.inTxn, after.seq.trans h.seq, after.op ▸ h.todo,
        after.suspended.trans h.suspended, after.resultStream ▸ h.result⟩
    exact .ends (ends.of_continues before.continues)
  | leaves engine now' goesOn m less left =>
    exact .leaves engine ((nowAfter.trans now').trans now) (goes goesOn) m less (left.congr after)
  | waits now' goesOn left waitT0 early =>
    exact .waits (now ▸ nowAfter.trans now') (goes goesOn) (left.congr after) ((after.waitT0.trans waitT0).trans before.waitT0)
      (now ▸ before.waitT0 ▸ cfg ▸ early)

/-- A quiet event has its step, which keeps the invariant and follows the running operation. -/
theorem step_follows {e : Event} (hq : quiet e = true) {s : State} {n : Nat} (inv : s.Inv) (left : s.Left n) :
    ∃ t, step { s with inputs := [e] } = .next t ∧ t.Inv ∧ t.cfg = s.cfg ∧ t.Follows s n e := by
  have before (l : List Event) : { s with inputs := l }.Inv := inv.of_modeInv (inv.mode.withEvents l s.choices)
  obtain ⟨u, hu⟩ := applyEvent_exists hq (before [])
  have hs : step { s with inputs := [e] } = .next (latchEdge { s with inputs := [] } u) := by
    rw [step_listed (s := { s with inputs := [e] }) rfl, hu]; rfl
  have follows := applyEvent_follows hq hu (before []).mode (before []).txn (left.congr (inputs_sameCaller s [] s.inputs))
  exact ⟨_, hs, everyStepKeepsTheInvariant _ _ (before [e]) hs, step_cfg (s := { s with inputs := [e] }) hs,
    follows.congr (latchEdge_sameCaller _ u) (inputs_sameCaller s [] s.inputs) rfl rfl rfl⟩

/-! ## Rounds (R106) -/

/-- As many rounds come as steps are left: the present one since the position was entered, or after a step already taken in
it. `waited` is the time since the last round's end. -/
def State.Enough (s : State) (n : Nat) (waited : Time) (events : List Event) : Prop :=
  (n ≤ fairRounds s.cfg waited events ∧ s.waitT0 + waited ≤ s.now) ∨ n < fairRounds s.cfg waited events

/-- Where no round ends with an event, the time it takes is waited. -/
theorem fairRounds_other (c : Config.Params) (waited : Time) {e : Event} (other : e ≠ .engine) (rest : List Event) :
    fairRounds c waited (e :: rest) = fairRounds c (waited + elapsed [e]) rest := by
  cases e with
  | engine => exact absurd rfl other
  | _ => rfl

theorem fairRounds_engine (c : Config.Params) (waited : Time) (rest : List Event) :
    fairRounds c waited (.engine :: rest) =
      if Config.longest c ≤ waited then fairRounds c 0 rest + 1 else fairRounds c waited rest := rfl

/-- A step that leaves its position uses up at most the round it is taken in. -/
theorem State.Enough.leaves {s t : State} {n m : Nat} {waited : Time} {rest : List Event}
    (enough : s.Enough n waited (.engine :: rest)) (less : m < n) (cfg : t.cfg = s.cfg) (time : t.waitT0 ≤ t.now) :
    ∃ waited', t.Enough m waited' rest := by
  unfold State.Enough at enough ⊢
  rw [fairRounds_engine] at enough
  rw [cfg]
  split at enough
  · exact ⟨0, .inl ⟨by omega, time⟩⟩
  · exact ⟨waited, .inr (by omega)⟩

/-- A round whose engine step stays has had one that left its position. -/
theorem State.Enough.waits {s t : State} {n : Nat} {waited : Time} {e : Event} {rest : List Event}
    (enough : s.Enough n waited (e :: rest)) (cfg : t.cfg = s.cfg) (now : t.now = s.now + elapsed [e])
    (waitT0 : t.waitT0 = s.waitT0) (early : e = .engine → s.now - s.waitT0 < Config.longest s.cfg)
    (time : t.waitT0 ≤ t.now) : ∃ waited', t.Enough n waited' rest := by
  unfold State.Enough at enough ⊢
  rw [cfg]
  by_cases engine : e = .engine
  · subst engine
    have early := early rfl
    have now : t.now = s.now := now
    rw [fairRounds_engine] at enough
    unfold Time at * -- for `omega`
    split at enough
    · exact ⟨0, .inl ⟨by omega, time⟩⟩
    · exact ⟨waited, by omega⟩
  · rw [fairRounds_other _ _ engine] at enough
    unfold Time at *
    exact ⟨waited + elapsed [e], by omega⟩

/-- The running operation ends within the rounds. -/
theorem ends_within {events : List Event} (allQuiet : ∀ e ∈ events, quiet e = true) {s : State} (inv : s.Inv) {n : Nat}
    (left : s.Left n) {waited : Time} (enough : s.Enough n waited events) :
    ∃ k ≤ events.length, ∃ t, afterEvents (events.take k) s = .next t ∧ t.Inv ∧ t.Ends s := by
  induction events generalizing s n waited with
  | nil =>
    have some := left.pos
    have none : n ≤ 0 := enough.elim And.left Nat.le_of_lt
    omega
  | cons e rest ih =>
    obtain ⟨hq, restQuiet⟩ := List.forall_mem_cons.mp allQuiet
    obtain ⟨u, hs, invU, cfg, follows⟩ := step_follows hq inv left
    have further {m : Nat} (goesOn : u.Continues s) (leftU : u.Left m) (enoughU : ∃ waited', u.Enough m waited' rest) :
        ∃ k ≤ (e :: rest).length, ∃ t,
          afterEvents ((e :: rest).take k) s = .next t ∧ t.Inv ∧ t.Ends s := by
      obtain ⟨waited', enoughU⟩ := enoughU
      obtain ⟨k, hk, t, run, invT, ends⟩ := ih restQuiet invU leftU enoughU
      refine ⟨k + 1, Nat.succ_le_succ hk, t, ?_, invT, ends.of_continues goesOn⟩
      rw [List.take_succ_cons, afterEvents, hs]
      exact run
    cases follows with
    | ends h =>
      refine ⟨1, Nat.succ_le_succ (Nat.zero_le _), u, ?_, invU, h⟩
      rw [List.take_succ_cons, List.take_zero, afterEvents, hs]
      rfl
    | leaves engine now goesOn m less leftU =>
      subst engine
      exact further goesOn leftU (enough.leaves less cfg invU.time)
    | waits now goesOn leftU waitT0 early => exact further goesOn leftU (enough.waits cfg now waitT0 early invU.time)

end Sys2Proof.Machine
end

section
/-! PROOFS. Fair schedules have as many rounds as are asked for (R106), so whatever is running in them ends (R170). -/

namespace Sys2Proof.Machine

/-! ## Schedules in parts -/

/-- A schedule from its `m`-th event on. -/
def laterEvents (schedule : Nat → Event) (m : Nat) : Nat → Event := fun n => schedule (m + n)

theorem firstEvents_add (schedule : Nat → Event) (m n : Nat) :
    firstEvents schedule (m + n) = firstEvents schedule m ++ firstEvents (laterEvents schedule m) n := by
  simp [firstEvents, List.range_add, laterEvents, Function.comp_def]

theorem take_firstEvents (schedule : Nat → Event) {k n : Nat} (hk : k ≤ n) :
    (firstEvents schedule n).take k = firstEvents schedule k := by
  rw [firstEvents, ← List.map_take, List.take_range, Nat.min_eq_left hk, firstEvents]

theorem length_firstEvents (schedule : Nat → Event) (n : Nat) : (firstEvents schedule n).length = n := by
  rw [firstEvents, List.length_map, List.length_range]

theorem elapsed_append (l m : List Event) : elapsed (l ++ m) = elapsed l + elapsed m := by
  induction l with
  | nil => exact (Nat.zero_add _).symm
  | cons e l ih =>
    cases e with
    | time d => exact (congrArg (d + ·) ih).trans (Nat.add_assoc _ _ _).symm
    | _ => exact ih

theorem elapsed_firstEvents_mono (schedule : Nat → Event) {m n : Nat} (h : m ≤ n) :
    elapsed (firstEvents schedule m) ≤ elapsed (firstEvents schedule n) := by
  obtain ⟨k, rfl⟩ := Nat.exists_eq_add_of_le h
  rw [firstEvents_add, elapsed_append]
  exact Nat.le_add_right _ _

/-- What is fair is so from every event on. -/
theorem WeaklyFair.later {schedule : Nat → Event} (fair : WeaklyFair schedule) (m : Nat) :
    WeaklyFair (laterEvents schedule m) where
  polls n := by
    obtain ⟨k, hk, engine⟩ := fair.polls (m + n)
    obtain ⟨i, rfl⟩ := Nat.exists_eq_add_of_le hk
    exact ⟨n + i, Nat.le_add_right _ _, by rw [laterEvents, ← Nat.add_assoc]; exact engine⟩
  time d := by
    obtain ⟨n, hn⟩ := fair.time (elapsed (firstEvents schedule m) + d)
    refine ⟨n, Nat.le_of_add_le_add_left (Nat.le_trans hn ?_)⟩
    rw [← elapsed_append, ← firstEvents_add]
    exact elapsed_firstEvents_mono schedule (Nat.le_add_left _ _)

/-! ## Rounds of a schedule -/

/-- A longer wait before the events makes at most one round more of them, and none less. -/
theorem fairRounds_mono (c : Config.Params) {v w : Time} (h : v ≤ w) (l : List Event) :
    fairRounds c v l ≤ fairRounds c w l ∧ fairRounds c w l ≤ fairRounds c v l + 1 := by
  induction l generalizing v w with
  | nil => exact ⟨Nat.le_refl _, Nat.zero_le _⟩
  | cons e l ih =>
    by_cases engine : e = .engine
    · subst engine
      have fromZero := ih (Nat.zero_le v)
      have here := ih h
      rw [fairRounds_engine, fairRounds_engine]
      unfold Time at *
      split <;> split <;> omega
    · rw [fairRounds_other _ _ engine, fairRounds_other _ _ engine]
      exact ih (Nat.add_le_add_right h _)

theorem fairRounds_append (c : Config.Params) (w : Time) (l m : List Event) :
    fairRounds c w l + fairRounds c 0 m ≤ fairRounds c w (l ++ m) := by
  induction l generalizing w with
  | nil => exact (Nat.zero_add _).symm ▸ (fairRounds_mono c (Nat.zero_le w) m).1
  | cons e l ih =>
    rw [List.cons_append]
    by_cases engine : e = .engine
    · subst engine
      have reset := ih 0
      have here := ih w
      rw [fairRounds_engine, fairRounds_engine]
      split <;> omega
    · rw [fairRounds_other _ _ engine, fairRounds_other _ _ engine]
      exact ih _

/-- Once the longest bound has passed an engine step ends a round. -/
theorem fairRounds_pos (c : Config.Params) {w : Time} {l : List Event} (passed : Config.longest c ≤ w + elapsed l) :
    0 < fairRounds c w (l ++ [.engine]) := by
  induction l generalizing w with
  | nil => rw [List.nil_append, fairRounds_engine, if_pos (show Config.longest c ≤ w from passed)]; exact Nat.succ_pos _
  | cons e l ih =>
    rw [List.cons_append]
    by_cases engine : e = .engine
    · subst engine
      rw [fairRounds_engine]
      split
      · exact Nat.succ_pos _
      · exact ih passed
    · rw [fairRounds_other _ _ engine]
      refine ih ?_
      rwa [← List.singleton_append, elapsed_append, ← Nat.add_assoc] at passed

/-- A fair schedule has as many rounds as are asked for. -/
theorem exists_fairRounds {schedule : Nat → Event} (fair : WeaklyFair schedule) (c : Config.Params) (k : Nat) :
    ∃ n, k ≤ fairRounds c 0 (firstEvents schedule n) := by
  induction k generalizing schedule with
  | zero => exact ⟨0, Nat.zero_le _⟩
  | succ k ih =>
    obtain ⟨start, passed⟩ := fair.time (Config.longest c)
    obtain ⟨m, hm, engine⟩ := fair.polls start
    have round : 0 < fairRounds c 0 (firstEvents schedule (m + 1)) := by
      rw [firstEvents_succ, engine]
      refine fairRounds_pos c ?_
      rw [Nat.zero_add]
      exact Nat.le_trans passed (elapsed_firstEvents_mono schedule hm)
    obtain ⟨n, rest⟩ := ih (fair.later (m + 1))
    have both := fairRounds_append c 0 (firstEvents schedule (m + 1)) (firstEvents (laterEvents schedule (m + 1)) n)
    rw [← firstEvents_add] at both
    exact ⟨m + 1 + n, by omega⟩

/-! ## An admitted operation -/

/-- Operations are admitted where the invariant holds as requests of their words, which keep it. -/
theorem exec_inv {i : Instr} (wf : i.WellFormed) {s u : State} (inv : s.Inv) (h : exec i s = .next u) : u.Inv := by
  rw [← genericCommandOfAListedDescriptorIsTheMnemonic i s wf, ← requestStep_decoded (decode_encode wf)] at h
  exact applyEvent_inv (e := .caller (.op (encode i))) h inv

/-- An operation whose first transaction has begun, within as many rounds as it has positions. -/
theorem begun_ends {events : List Event} (allQuiet : ∀ e ∈ events, quiet e = true) {u : State} (inv : u.Inv) {it : Item}
    (seq : u.seq = .ctOpcode .rtsClk) (desc : u.txn.desc = it.desc)
    (enough : operationLength (it :: u.op.todo) ≤ fairRounds u.cfg 0 events) :
    ∃ n ≤ events.length, ∃ t, afterEvents (events.take n) u = .next t ∧ t.Inv ∧ t.Ends u :=
  ends_within allQuiet inv (left_of_begun seq desc (Nat.le_refl _)) (waited := 0) (.inl ⟨enough, inv.time⟩)

theorem State.Ends.ready {s t : State} (ends : t.Ends s) (inv : t.Inv) : t.Ready :=
  ⟨ends.configured, ends.inTxn, inv.mode.handlerOff⟩

/-- The last transaction of a series that has begun is the last of the series. -/
theorem lastDesc_of_begun {u : State} {it : Item} (desc : u.txn.desc = it.desc) :
    ∃ last, (it :: u.op.todo).getLast? = some last ∧ u.lastDesc = last.desc := by
  refine ⟨_, List.getLast?_cons, ?_⟩
  rw [State.lastDesc, desc]
  cases u.op.todo.getLast? <;> rfl

/-- An admitted operation ends within as many rounds as it has positions. -/
theorem operation_ends {i : Instr} {s : State} {events : List Event} (wf : i.WellFormed) (inv : s.Inv) (ready : s.Ready)
    (allQuiet : ∀ e ∈ events, quiet e = true)
    (enough : operationLength (expansion s.cfg i) ≤ fairRounds s.cfg 0 events) :
    ∃ u n t r, exec i s = .next u ∧ n ≤ events.length ∧ afterEvents (events.take n) u = .next t ∧
      t.Ready ∧ t.seq = .idle ∧ t.op.todo = s.op.todo ∧ t.suspended = s.suspended ∧
      t.resultStream = s.resultStream ++ [r] ∧
      ∃ it, (expansion s.cfg i).getLast? = some it ∧ r.bytes.length = recvCount it.desc := by
  obtain ⟨it, rest, series⟩ := expansion_cons s.cfg i
  obtain ⟨u, begins, view⟩ := exec_view wf ready series
  have seq : u.seq = .ctOpcode .rtsClk := congrArg View.seq view
  have desc : u.txn.desc = it.desc := congrArg (·.txn.desc) view
  have todo : u.op.todo = rest := congrArg (·.op.todo) view
  have cfg : u.cfg = s.cfg := congrArg View.cfg view
  have aside : u.suspended = s.putAside := congrArg View.suspended view
  have results : u.resultStream = s.resultStream := congrArg View.resultStream view
  rw [← todo] at series
  rw [series, ← cfg] at enough
  obtain ⟨n, hn, t, run, invT, ends⟩ := begun_ends allQuiet (exec_inv wf inv begins) seq desc enough
  obtain ⟨last, isLast, lastDesc⟩ := lastDesc_of_begun desc
  obtain ⟨r, result, bytes⟩ := ends.result
  obtain ⟨todoBack, suspendedBack⟩ := putAside_goes_on inv.mode ready.noTxn
  rw [← aside] at todoBack suspendedBack
  exact ⟨u, n, t, r, begins, hn, run, ends.ready invT, ends.seq, ends.todo.trans todoBack, ends.suspended.trans suspendedBack,
    results ▸ result, last, series ▸ isLast, lastDesc ▸ bytes⟩

/-! ## Whatever is running -/

/-- Nothing runs and nothing is put aside. -/
structure State.AtRest (s : State) : Prop where
  inTxn : s.inTxn = false
  seq : s.seq = .idle
  todo : s.op.todo = []
  suspended : s.suspended = []

theorem atRest_or_running {s : State} (mode : s.ModeInv) : s.AtRest ∨ s.Running := by
  refine Classical.or_iff_not_imp_right.mpr fun atRest => ?_
  obtain ⟨notBusy, noMore⟩ := not_or.mp atRest
  have free : s.inTxn = false := Bool.eq_false_iff.mpr notBusy
  have todo : s.op.todo = [] := Classical.not_not.mp noMore
  have side : s.seq.inTransaction = false := mode.txnSeq.symm.trans free
  refine ⟨free, ?_, todo, mode.suspendedUnder free todo⟩
  cases hq : s.seq with
  | idle => rfl
  | ctBegin => exact absurd todo (mode.beginHasItem hq)
  | _ => rw [hq] at side; cases side

theorem State.AtRest.outstanding {s : State} (rest : s.AtRest) : s.outstanding = 0 := by
  rw [State.outstanding, rest.inTxn, rest.todo, rest.suspended]
  rfl

theorem State.Running.outstanding {s : State} (running : s.Running) : s.outstanding = 1 + s.suspended.length := by
  refine congrArg (· + s.suspended.length) (if_pos ?_)
  obtain busy | more := running
  · rw [busy, Bool.true_or]
  · simp [more]

/-- An operation's end leaves one outstanding less. -/
theorem State.Ends.outstanding {s t : State} (ends : t.Ends s) (mode : s.ModeInv) (running : s.Running) :
    s.outstanding = t.outstanding + 1 := by
  rw [running.outstanding]
  cases aside : s.suspended with
  | nil =>
    have rest : t.AtRest :=
      ⟨ends.inTxn, ends.seq, by rw [ends.todo, aside]; rfl, by rw [ends.suspended, aside]; rfl⟩
    rw [rest.outstanding]
    rfl
  | cons o others =>
    have wait : o.todo ≠ [] := mode.suspendedWait o (by rw [aside]; exact List.mem_cons_self)
    have next : t.Running := .inr (by rw [ends.todo, aside]; exact wait)
    rw [next.outstanding, ends.suspended, aside, List.length_cons, List.tail_cons]
    omega

/-- In a fair schedule the operation that runs ends. -/
theorem running_ends {s : State} {schedule : Nat → Event} (inv : s.Inv) (fair : WeaklyFair schedule)
    (allQuiet : ∀ n, quiet (schedule n) = true) (running : s.Running) :
    ∃ n t, afterEvents (firstEvents schedule n) s = .next t ∧ t.Inv ∧ t.Ends s := by
  obtain ⟨k, left⟩ := left_of_running inv.mode inv.txn running
  obtain ⟨m, rounds⟩ := exists_fairRounds fair s.cfg k
  have quietEvents : ∀ e ∈ firstEvents schedule m, quiet e = true := by
    intro e he
    obtain ⟨n, -, rfl⟩ := List.mem_map.mp he
    exact allQuiet n
  obtain ⟨n, hn, t, run, invT, ends⟩ := ends_within quietEvents inv left (waited := 0) (.inl ⟨rounds, inv.time⟩)
  rw [length_firstEvents] at hn
  rw [take_firstEvents schedule hn] at run
  exact ⟨n, t, run, invT, ends⟩

/-- And after it one after another, until nothing is outstanding. -/
theorem all_end {s : State} {schedule : Nat → Event} (inv : s.Inv) (fair : WeaklyFair schedule)
    (allQuiet : ∀ n, quiet (schedule n) = true) :
    ∃ n t, afterEvents (firstEvents schedule n) s = .next t ∧ t.AtRest ∧
      t.resultStream.length = s.resultStream.length + s.outstanding := by
  induction k : s.outstanding generalizing s schedule with
  | zero =>
    obtain rest | running := atRest_or_running inv.mode
    · exact ⟨0, s, rfl, rest, rfl⟩
    · rw [running.outstanding] at k
      omega
  | succ k' ih =>
    obtain rest | running := atRest_or_running inv.mode
    · cases rest.outstanding.symm.trans k
    obtain ⟨m, t, run, invT, ends⟩ := running_ends inv fair allQuiet running
    have fewer : t.outstanding = k' := Nat.succ.inj ((ends.outstanding inv.mode running).symm.trans k)
    obtain ⟨n, u, run', rest, results⟩ := ih invT (fair.later m) (fun n => allQuiet (m + n)) fewer
    obtain ⟨r, result, -⟩ := ends.result
    refine ⟨m + n, u, ?_, rest, ?_⟩
    · rw [firstEvents_add, afterEvents_append run]
      exact run'
    · rw [results, result, List.length_append, List.length_singleton]
      omega

/-- Settles O48: an admitted operation within its rounds, and in a fair schedule one operation after another. -/
theorem everyOperationEnds : Obligations.EveryOperationEnds := by
  unfold Obligations.EveryOperationEnds
  refine ⟨fun i s events wf inv ready allQuiet enough => operation_ends wf inv ready allQuiet enough,
    fun s schedule inv fair allQuiet => ?_⟩
  obtain ⟨n, t, run, rest, results⟩ := all_end inv fair allQuiet
  exact ⟨n, t, run, rest.inTxn, rest.seq, rest.todo, rest.suspended, results⟩

end Sys2Proof.Machine
end
